-- ==== Sys2Proof/Word.lean ====
section
/-!
DEFINITION. The word types of the XW49 (every multi-byte value is little-endian, R10) and the one finite-map type that State is built of.
-/
namespace Sys2Proof

abbrev Byte := BitVec 8
/-- 16 bits. -/
abbrev Half := BitVec 16
abbrev Word32 := BitVec 32
/-- A scalar register or control register of the tile (Table 0.3, R66). -/
abbrev Word64 := BitVec 64
/-- A vector register: 512 bits (Table 3.9). -/
abbrev Vec := BitVec 512

/-- A sparse map from numbers to values: (key, value) pairs with strictly rising keys and no pair whose value is
what an unlisted key reads as (the operations of Machine/Store.lean keep that form), so that equal maps are equal
data. -/
abbrev SMap (α : Type) := List (Nat × α)

end Sys2Proof
end

