-- ==== Sys2Proof/Syntax.lean ====
section
/-!
DEFINITION. The commands of the XW49 block: one constructor of Instr per row of spec/opcode_table.json, in the
table's order, and the operand types they use. An operand is either what the spec gives the row (a register, a
slot, an address, a dictionary value) or a PHYSICAL FACT that only the world outside the block decides (an upset
of a memory cell, a temperature, a test result, what host memory holds); log entry 2 names the second kind.
-/
namespace Sys2Proof

/-- A logical tile address (R9): x and y from 0 to 111. -/
structure XY where
  x : Nat
  y : Nat
deriving DecidableEq, Repr, Inhabited

/-- A physical tile site F.row.PC (R8). -/
structure SiteId where
  field : Nat
  row : Nat
  pc : Nat
deriving DecidableEq, Repr, Inhabited

/-- A register field of an instruction: D, SA, SB, GS or GK (R80). -/
abbrev Reg := BitVec 5
/-- The 32-bit extension X of Format L (Table 3.1). -/
abbrev Ext := BitVec 32
abbrev Off12 := BitVec 12
abbrev Off24 := BitVec 24
abbrev Size2 := BitVec 2
/-- A vector lane type code TY, STY or DTY (Table 3.9). -/
abbrev Ty := BitVec 3
/-- A storage format code FMT (Table 3.10). -/
abbrev FmtCode := BitVec 5
/-- A send channel number, CH 0 to 31. -/
abbrev Chan := BitVec 5
/-- A queue number, Q0 to Q15. -/
abbrev QNum := BitVec 4
/-- A stream port: 0 N, 1 E, 2 S, 3 W. -/
abbrev Port := BitVec 2
/-- A configuration slot number. -/
abbrev SlotNum := BitVec 2
/-- A partition id, 0 to 48 (R313). -/
abbrev PartId := Nat

/-- The immediate of a Format I instruction (12 bits) or of its Format L twin (32 bits) (Tables 3.1, 3.5, 3.7). -/
inductive Imm where
  | short (i : BitVec 12)
  | long (x : BitVec 32)
deriving DecidableEq, Repr

/-- What has happened to the cells of the scratchpad word that a read meets, since it was last written (R213), or to the data of
the read on its way to the consumer, whose parity is then wrong (R214): a physical fact. -/
inductive Upset where
  | none
  | single
  | double
  | parity
deriving DecidableEq, Repr

/-- A register whose data goes to the scratchpad, and the byte of that data, if any, whose parity is wrong when it reaches the array
boundary (R214): a physical fact. -/
structure Sent where
  reg : Reg
  bad : Option Nat
deriving DecidableEq, Repr, Inhabited

/-- A register of an instruction on whose account a unit reads the scratchpad, and whether what that unit reads arrives with wrong
parity (R214): a physical fact. -/
structure Got where
  reg : Reg
  par : Bool
deriving DecidableEq, Repr, Inhabited

/-- What a read of a DRAM line meets (R225, R234): a physical fact. -/
inductive LineErr where
  | none
  | corrected
  | uncorrectable
deriving DecidableEq, Repr, Inhabited

/-- What the lanes of a mesh link do to a train that crosses it: the flits that arrive with a CRC error (R242), and the byte of its
data, if any, whose parity is wrong when it reaches the array boundary of its end (R214): physical facts. -/
structure TrainErr where
  crc : List Nat := []
  parity : Option Nat := none
deriving DecidableEq, Repr, Inhabited

/-- Errors on the lanes of a stream link as a token crosses it (R174): SBP wrong, or bytes of PAR wrong. -/
inductive TokenErr where
  | none
  | sbp
  | par
deriving DecidableEq, Repr

/-- A block of an operand whose parity fails as it leaves the buffer (R134): operand A or B, the row (of A) or
column (of B), and the block number along K. -/
structure BadBlock where
  ofB : Bool
  row : Nat
  blk : Nat
deriving DecidableEq, Repr

/-- A PCI Express port (R306). -/
inductive HPort where
  | a
  | b
deriving DecidableEq, Repr, Inhabited

/-- Which response timer expires (R252): of a tile's transaction or channel, or of a BAR2 read of a port, whose expiry is the error
response of R310. -/
inductive TimerKind where
  | transaction (tag : Nat)
  | opening (ch : BitVec 5)
  | closing (ch : BitVec 5)
  | bar2 (port : HPort) (id : Nat)
deriving DecidableEq, Repr

/-- A PCIe function: 0 the PF, 1 to 31 a VF (R308). -/
structure Fn where
  port : HPort
  fn : Nat
deriving DecidableEq, Repr, Inhabited

/-- The unit that holds snapshots, stagings, subscriptions and requests (Table 13.6); fw is actor F. -/
inductive Endpoint where
  | mailbox (f : Fn)
  | mctp (port : HPort) (eid : Nat)
  | udp (addr : Nat) (port : Nat)
  | fw
deriving DecidableEq, Repr, Inhabited

/-- A dictionary write of a row that names its entry: the requester, its TAG, and whether the serial NOR devices
take a flash write that the entry needs (a physical fact, R353). -/
structure WReq where
  ep : Endpoint
  tag : Nat
  flashOk : Bool
deriving DecidableEq, Repr, Inhabited

/-- An MCTP packet as it arrives: start and end of message, its sequence number, and its payload bytes (R351). -/
structure MctpPacket where
  som : Bool
  eom : Bool
  seq : Nat
  bytes : Nat
deriving DecidableEq, Repr, Inhabited

/-- A message that reaches a port's MCTP endpoint: the port, the instance ID of a control request (DSP0236), and the packets that
came (none: all of the message's, in order; R351). -/
structure MctpIn where
  port : HPort
  inst : Nat := 0
  packets : Option (List MctpPacket) := none
deriving DecidableEq, Repr, Inhabited

/-- What a transport brings with an Aceel frame: the bytes of the frame; of a datagram its hop limit and destination port (R352);
of an MCTP message the packets that it was assembled from (none: all of them, in order), whether it names Vangoa's vendor ID, and
its selector (R351). With any request comes whether the 10BASE-T1S node sees a PLCA beacon (Table 13.9), a physical fact. -/
structure Envelope where
  bytes : Nat := 4096
  hop : Nat := 255
  port : Nat := 0xCE5A
  packets : Option (List MctpPacket) := none
  vangoa : Bool := true
  selector : Nat := 1
  beacon : Bool := false
deriving DecidableEq, Repr, Inhabited

/-- The header of an Aceel request (Table 13.4); op is the OP byte as received. -/
structure Req where
  ep : Endpoint
  op : Nat
  flags : Nat
  ix : Nat
  sub : Nat
  status : Nat
  tag : Nat
  len : Nat
  off : Nat
  flashOk : Bool
  env : Envelope := {}
deriving DecidableEq, Repr, Inhabited

/-- How a PCIe read of a host window ends (R312). -/
inductive HostRes where
  | data (bytes : List Byte)
  | errorStatus
  | poisoned
  | timeout
deriving DecidableEq, Repr

/-- The result of a requested test (Table 17.9, 0x5021). -/
inductive TestRes where
  | pass
  | fail
  | abandoned
deriving DecidableEq, Repr

/-- How a received frame stands (R281 to R283): good; its FCS fails or its codewords are uncorrectable; it is addressed to another
unicast MAC, or is of no type that the port takes; its UDP checksum fails; or its XDT header does not hold: VERSION, a
reserved opcode, a reserved field, or the ICRC. -/
inductive Arrival where
  | good
  | fcs
  | codewords
  | otherMac
  | otherType
  | udpSum
  | version
  | opcode
  | reserved
  | icrc
deriving DecidableEq, Repr, Inhabited

/-- The XDT header does not hold. -/
def Arrival.badHeader : Arrival → Bool
  | .version => true
  | .opcode => true
  | .reserved => true
  | .icrc => true
  | _ => false

/-- The XDT header (Table 11.3) without VERSION and OPCODE (OPCODE is the command's row), the address word, the
payload, the length of the frame in bits on the wire being computed from them; icrcOk, versionOk and reservedOk
say whether those checks of R283 pass, ce whether the frame is ECN-marked (R294). -/
structure XFrame where
  last : Bool
  restart : Bool
  ctrl : Bool
  pin : Bool
  retx : Bool
  ch : Nat
  pkey : Nat
  ddev : Nat
  sdev : Nat
  dtile : XY
  dqueue : Nat
  psn : Nat
  apsn : Nat
  msgid : Nat
  offset : Nat
  length : Nat
  addr : Nat
  payload : List Byte
  /-- of a received frame: how it stands, the codewords corrected in it, whether it has a tag and is routed, and its CE mark -/
  arrival : Arrival
  corrected : Nat
  tagged : Bool
  routed : Bool
  ce : Bool
deriving DecidableEq, Repr, Inhabited

/-- A reference input (R357). -/
inductive RefClk where
  | a
  | b
deriving DecidableEq, Repr, Inhabited

/-- Why a field's power is removed (Table 15.3). -/
inductive TripCause where
  | short
  | supply
  | thermal
deriving DecidableEq, Repr

/-- The result of a walk visit (Table 17.4): a pass, a failure (with its defect-map cause's Ochre id where a kernel
failed), or a failure of the margin sweep only (R434, R372). -/
inductive VisitRes where
  | pass
  | fail (ochre : Byte)
  | marginOnly
deriving DecidableEq, Repr

/-- An IEEE 1588 event message at a port (R302): sent or received, and for a received one the offset from the
master that the exchange yields, in ns. -/
structure PtpEvent where
  transmit : Bool
  offsetNs : Int
  rateAdj : Int
deriving DecidableEq, Repr, Inhabited

/-- The measurements of one governor cycle (R389 to R391): the power in W of cuffs, LPDDR6, conversion loss and of the
fields in no partition; the 100 microsecond input average and voltage (F32); for each partition, its baseline and its
full-issue dynamic power as the predictor has fitted them, at its requested point and one point lower; which
partitions still lack 10 ms of measurements; and what part of the first power is that of fields in no partition. -/
structure GovMeas where
  other : Nat
  input : Nat
  voltage : Word32
  base : List (Nat × Nat)
  dyn : List (Nat × Nat)
  baseLow : List (Nat × Nat)
  dynLow : List (Nat × Nat)
  unmeasured : List Nat
  idle : Nat
deriving DecidableEq, Repr, Inhabited

/-- The energies of one 100 microsecond interval in microjoules (R394, R395): each field's output and calibrated baseline, the
input, LPDDR6 and cuff energies, and each field's calibrated weights are Config's. -/
structure EnergyMeas where
  input : Nat
  lpddr : Nat
  cuff : Nat
  fields : List (Nat × Nat)
  base : List (Nat × Nat)
deriving DecidableEq, Repr, Inhabited

/-- What a bring-up finds (Tables 16.1, 16.4, 16.5): the sites that BIST or Ochre finds failing (site, cause, the failing
kernel's Ochre id or 0), those whose test the fallback path has not finished (R422), the channels that
fail training, the seam lanes judged bad (bundle, lanes: 0 to 31 L0 to L31, 32 and 33 H0 and H1), the fmax values measured
(site, index, value), the fields that trip in their soft start, the sites whose Woad payload comes over the debug path because
the mesh does not reach them or their check of it fails (R408), how often in a row a section of the image that is read again
does not match its digest (R404), whether the bring-up reaches READY, and the sites that router BIST finds failing (R408, R420). -/
structure BringUp where
  failing : List (SiteId × Byte × Byte)
  unproven : List SiteId
  badChannels : List Nat
  badLanes : List (Nat × List Nat)
  fmax : List (SiteId × Nat × Nat)
  softTrip : List Nat
  woadFails : List SiteId
  rereads : Nat
  reached : Bool
  routerFails : List SiteId
deriving DecidableEq, Repr, Inhabited

/-- What the power-up finds before READY (R398 to R405): which references are good, the candidate fields, the fields that
fail their ramp, whether the input stage reports no input power or no converter count (R422), whether each image's bytes
verify, which of the two copies of the saved dictionary and of the maps pass their CRC (NOR device 0 in bit 0), and whether PWR_EN
had been low for 500 ms, or the busbar had fallen below 20 V (R474). -/
structure BootFacts where
  noBudget : Bool
  refA : Bool
  refB : Bool
  candidates : List Nat
  rampFail : List Nat
  imageOk : List Bool
  copiesValid : BitVec 2
  mapsValid : BitVec 2
  lowLong : Bool := true
deriving DecidableEq, Repr, Inhabited

/-- A refresh window: the bank, and the hottest LPDDR6 die temperature that the complex then holds, °C (R232, Table 8.11). -/
structure RefreshBank where
  bank : Nat
  temp : Byte
deriving DecidableEq, Repr, Inhabited

/-- How a site fails a field test (R372, R437, R438): router BIST, another BIST item, an Ochre kernel, or the margin sweep alone. -/
inductive SiteFault where
  | router
  | bist
  | ochre (kernel : Byte)
  | margin
deriving DecidableEq, Repr, Inhabited

/-- The commands of the block: one constructor per row of spec/opcode_table.json. -/
inductive Instr where
  /-- ADD (R82). Scalar add of g[SA] and g[SB] into g[D], wrapping modulo 2^64. -/
  | add (t : XY) (d : Reg) (sa : Reg) (sb : Reg)
  /-- SUB (R82). Scalar subtract of g[SB] from g[SA] into g[D], wrapping. -/
  | sub (t : XY) (d : Reg) (sa : Reg) (sb : Reg)
  /-- AND (R82). Bitwise and of g[SA] and g[SB] into g[D]. -/
  | and (t : XY) (d : Reg) (sa : Reg) (sb : Reg)
  /-- OR (R82). Bitwise or of g[SA] and g[SB] into g[D]. -/
  | or (t : XY) (d : Reg) (sa : Reg) (sb : Reg)
  /-- XOR (R82). Bitwise exclusive or of g[SA] and g[SB] into g[D]. -/
  | xor (t : XY) (d : Reg) (sa : Reg) (sb : Reg)
  /-- SLL (R82). Shift g[SA] left by g[SB][5:0] into g[D]. -/
  | sll (t : XY) (d : Reg) (sa : Reg) (sb : Reg)
  /-- SRL (R82). Shift g[SA] right with zero fill by g[SB][5:0] into g[D]. -/
  | srl (t : XY) (d : Reg) (sa : Reg) (sb : Reg)
  /-- SRA (R82). Shift g[SA] right with sign fill by g[SB][5:0] into g[D]. -/
  | sra (t : XY) (d : Reg) (sa : Reg) (sb : Reg)
  /-- SLT (R82). Set g[D] to 1 if g[SA] is less than g[SB] signed, else 0. -/
  | slt (t : XY) (d : Reg) (sa : Reg) (sb : Reg)
  /-- SLTU (R82). Set g[D] to 1 if g[SA] is less than g[SB] unsigned, else 0. -/
  | sltu (t : XY) (d : Reg) (sa : Reg) (sb : Reg)
  /-- MIN (R82). Signed minimum of g[SA] and g[SB] into g[D]. -/
  | min (t : XY) (d : Reg) (sa : Reg) (sb : Reg)
  /-- MAX (R82). Signed maximum of g[SA] and g[SB] into g[D]. -/
  | max (t : XY) (d : Reg) (sa : Reg) (sb : Reg)
  /-- MINU (R82). Unsigned minimum of g[SA] and g[SB] into g[D]. -/
  | minu (t : XY) (d : Reg) (sa : Reg) (sb : Reg)
  /-- MAXU (R82). Unsigned maximum of g[SA] and g[SB] into g[D]. -/
  | maxu (t : XY) (d : Reg) (sa : Reg) (sb : Reg)
  /-- SEL (R82). g[D] receives g[SA] if g[D] is nonzero, else g[SB]. -/
  | sel (t : XY) (d : Reg) (sa : Reg) (sb : Reg)
  /-- MUL (R82). Low 64 bits of the product of g[SA] and g[SB] into g[D]. -/
  | mul (t : XY) (d : Reg) (sa : Reg) (sb : Reg)
  /-- MULH (R82). High 64 bits of the signed product into g[D]. -/
  | mulh (t : XY) (d : Reg) (sa : Reg) (sb : Reg)
  /-- MULHU (R82). High 64 bits of the unsigned product into g[D]. -/
  | mulhu (t : XY) (d : Reg) (sa : Reg) (sb : Reg)
  /-- DIV (R82). Signed quotient rounded toward zero, with defined results for zero divisor and overflow. -/
  | div (t : XY) (d : Reg) (sa : Reg) (sb : Reg)
  /-- DIVU (R82). Unsigned quotient into g[D], all ones for a zero divisor. -/
  | divu (t : XY) (d : Reg) (sa : Reg) (sb : Reg)
  /-- REM (R82). Signed remainder into g[D], the dividend for a zero divisor. -/
  | rem (t : XY) (d : Reg) (sa : Reg) (sb : Reg)
  /-- REMU (R82). Unsigned remainder into g[D], the dividend for a zero divisor. -/
  | remu (t : XY) (d : Reg) (sa : Reg) (sb : Reg)
  /-- CLZ (R82). Count of leading zero bits of g[SA] into g[D]. -/
  | clz (t : XY) (d : Reg) (sa : Reg)
  /-- POPC (R82). Count of one bits of g[SA] into g[D]. -/
  | popc (t : XY) (d : Reg) (sa : Reg)
  /-- ADDI (R82). Add a sign-extended immediate to g[SA] into g[D]. -/
  | addi (t : XY) (d : Reg) (sa : Reg) (imm : Imm)
  /-- ANDI (R82). And g[SA] with a sign-extended immediate into g[D]. -/
  | andi (t : XY) (d : Reg) (sa : Reg) (imm : Imm)
  /-- ORI (R82). Or g[SA] with a sign-extended immediate into g[D]. -/
  | ori (t : XY) (d : Reg) (sa : Reg) (imm : Imm)
  /-- XORI (R82). Exclusive or g[SA] with a sign-extended immediate into g[D]. -/
  | xori (t : XY) (d : Reg) (sa : Reg) (imm : Imm)
  /-- SLLI (R82). Shift g[SA] left by an immediate count into g[D]. -/
  | slli (t : XY) (d : Reg) (sa : Reg) (imm : Imm)
  /-- SRLI (R82). Shift g[SA] right with zero fill by an immediate count into g[D]. -/
  | srli (t : XY) (d : Reg) (sa : Reg) (imm : Imm)
  /-- SRAI (R82). Shift g[SA] right with sign fill by an immediate count into g[D]. -/
  | srai (t : XY) (d : Reg) (sa : Reg) (imm : Imm)
  /-- SLTI (R82). Set g[D] to 1 if g[SA] is less than a sign-extended immediate, signed. -/
  | slti (t : XY) (d : Reg) (sa : Reg) (imm : Imm)
  /-- LIH (R82). g[D] receives the extension shifted left 32 or-ed with the low half of g[SA]. -/
  | lih (t : XY) (d : Reg) (sa : Reg) (x : Ext)
  /-- BEQ (R83). Branch to PC plus OFF12 if g[SA] equals g[SB]. -/
  | beq (t : XY) (sa : Reg) (sb : Reg) (off : Off12)
  /-- BNE (R83). Branch if g[SA] differs from g[SB]. -/
  | bne (t : XY) (sa : Reg) (sb : Reg) (off : Off12)
  /-- BLT (R83). Branch if g[SA] is less than g[SB], signed. -/
  | blt (t : XY) (sa : Reg) (sb : Reg) (off : Off12)
  /-- BGE (R83). Branch if g[SA] is at least g[SB], signed. -/
  | bge (t : XY) (sa : Reg) (sb : Reg) (off : Off12)
  /-- BLTU (R83). Branch if g[SA] is less than g[SB], unsigned. -/
  | bltu (t : XY) (sa : Reg) (sb : Reg) (off : Off12)
  /-- BGEU (R83). Branch if g[SA] is at least g[SB], unsigned. -/
  | bgeu (t : XY) (sa : Reg) (sb : Reg) (off : Off12)
  /-- JAL (R83). Write PC plus 1 to g[D] and branch to PC plus OFF12. -/
  | jal (t : XY) (d : Reg) (off : Off12)
  /-- JALR (R83). Write PC plus 1 to g[D] and branch to g[SA] plus OFF12. -/
  | jalr (t : XY) (d : Reg) (sa : Reg) (off : Off12)
  /-- LB (R84). Load one byte from the scratchpad into g[D], sign-extended. -/
  | lb (t : XY) (d : Reg) (sa : Reg) (imm : Imm) (up : Upset)
  /-- LH (R84). Load two bytes into g[D], sign-extended. -/
  | lh (t : XY) (d : Reg) (sa : Reg) (imm : Imm) (up : Upset)
  /-- LW (R84). Load four bytes into g[D], sign-extended. -/
  | lw (t : XY) (d : Reg) (sa : Reg) (imm : Imm) (up : Upset)
  /-- LD (R84). Load eight bytes from the scratchpad or own control block into g[D]. -/
  | ld (t : XY) (d : Reg) (sa : Reg) (imm : Imm) (up : Upset)
  /-- LBU (R84). Load one byte into g[D], zero-extended. -/
  | lbu (t : XY) (d : Reg) (sa : Reg) (x : Ext) (up : Upset)
  /-- LHU (R84). Load two bytes into g[D], zero-extended. -/
  | lhu (t : XY) (d : Reg) (sa : Reg) (x : Ext) (up : Upset)
  /-- LWU (R84). Load four bytes into g[D], zero-extended. -/
  | lwu (t : XY) (d : Reg) (sa : Reg) (x : Ext) (up : Upset)
  /-- SB (R84). Store the low byte of g[D] to the scratchpad. -/
  | sb (t : XY) (d : Sent) (sa : Reg) (imm : Imm)
  /-- SH (R84). Store the low two bytes of g[D]. -/
  | sh (t : XY) (d : Sent) (sa : Reg) (imm : Imm)
  /-- SW (R84). Store the low four bytes of g[D]. -/
  | sw (t : XY) (d : Sent) (sa : Reg) (imm : Imm)
  /-- SD (R84). Store eight bytes of g[D] to the scratchpad or an own control-block register. -/
  | sd (t : XY) (d : Sent) (sa : Reg) (imm : Imm)
  /-- GLD (R85). Issue a global load of 1 to 8 bytes from a device address as one transaction. -/
  | gld (t : XY) (d : Reg) (sa : Reg) (off : Off24) (u : Bool) (sz : Size2)
  /-- GST (R85). Issue a global store of 1 to 8 bytes to a device address as one transaction. -/
  | gst (t : XY) (d : Reg) (sa : Reg) (off : Off24) (sz : Size2)
  /-- GDMA_GET (R86). Copy bytes from a device address to the local scratchpad in 8 KiB segments. -/
  | gdmaGet (t : XY) (d : Reg) (sa : Reg) (sb : Reg)
  /-- GDMA_PUT (R86). Copy bytes from the local scratchpad to a device address in 8 KiB segments. -/
  | gdmaPut (t : XY) (d : Reg) (sa : Reg) (sb : Reg)
  /-- VADD (R89). Lane-wise vector add of v[SA] and v[SB] into v[D]. -/
  | vadd (t : XY) (d : Reg) (sa : Reg) (sb : Reg) (ty : Ty)
  /-- VSUB (R89). Lane-wise vector subtract into v[D]. -/
  | vsub (t : XY) (d : Reg) (sa : Reg) (sb : Reg) (ty : Ty)
  /-- VMUL (R89). Lane-wise vector multiply into v[D]. -/
  | vmul (t : XY) (d : Reg) (sa : Reg) (sb : Reg) (ty : Ty)
  /-- VFMA (R89). Lane-wise fused multiply-add into v[D] with one rounding. -/
  | vfma (t : XY) (d : Reg) (sa : Reg) (sb : Reg) (ty : Ty)
  /-- VMAX (R89). Lane-wise maximum into v[D]. -/
  | vmax (t : XY) (d : Reg) (sa : Reg) (sb : Reg) (ty : Ty)
  /-- VMIN (R89). Lane-wise minimum into v[D]. -/
  | vmin (t : XY) (d : Reg) (sa : Reg) (sb : Reg) (ty : Ty)
  /-- VABS (R89). Lane-wise absolute value of v[SA] into v[D]. -/
  | vabs (t : XY) (d : Reg) (sa : Reg) (ty : Ty)
  /-- VNEG (R89). Lane-wise negation of v[SA] into v[D]. -/
  | vneg (t : XY) (d : Reg) (sa : Reg) (ty : Ty)
  /-- VAND (R89). Bitwise and of all 512 bits into v[D]. -/
  | vand (t : XY) (d : Reg) (sa : Reg) (sb : Reg) (ty : Ty)
  /-- VOR (R89). Bitwise or of all 512 bits into v[D]. -/
  | vor (t : XY) (d : Reg) (sa : Reg) (sb : Reg) (ty : Ty)
  /-- VXOR (R89). Bitwise exclusive or of all 512 bits into v[D]. -/
  | vxor (t : XY) (d : Reg) (sa : Reg) (sb : Reg) (ty : Ty)
  /-- VSLL (R89). Lane-wise integer shift left by counts in v[SB]. -/
  | vsll (t : XY) (d : Reg) (sa : Reg) (sb : Reg) (ty : Ty)
  /-- VSRL (R89). Lane-wise integer shift right with zero fill. -/
  | vsrl (t : XY) (d : Reg) (sa : Reg) (sb : Reg) (ty : Ty)
  /-- VSRA (R89). Lane-wise integer shift right with sign fill. -/
  | vsra (t : XY) (d : Reg) (sa : Reg) (sb : Reg) (ty : Ty)
  /-- VSEL (R89). Select v[SA] lanes where the v[D] lane is nonzero, else v[SB]. -/
  | vsel (t : XY) (d : Reg) (sa : Reg) (sb : Reg) (ty : Ty)
  /-- VCMPLT (R89). Set each v[D] lane to all ones where v[SA] is less than v[SB], else zero. -/
  | vcmplt (t : XY) (d : Reg) (sa : Reg) (sb : Reg) (ty : Ty)
  /-- VBCAST (R89). Broadcast the low lane bits of g[SA] to every lane of v[D]. -/
  | vbcast (t : XY) (d : Reg) (sa : Reg) (ty : Ty)
  /-- VEXT (R89). Extract one lane of v[SA] into g[D], zero-extended. -/
  | vext (t : XY) (d : Reg) (sa : Reg) (sb : Reg) (ty : Ty)
  /-- VMOV (R89). Copy v[SA] into v[D]. -/
  | vmov (t : XY) (d : Reg) (sa : Reg) (ty : Ty)
  /-- VLD (R90). Load 64 bytes of scratchpad into v[D]. -/
  | vld (t : XY) (d : Reg) (sa : Reg) (x : Ext) (up : Upset)
  /-- VST (R90). Store v[D] to 64 bytes of scratchpad. -/
  | vst (t : XY) (d : Sent) (sa : Reg) (x : Ext)
  /-- VQZ (R91). Quantise 32 elements to a blocked format, writing elements and block scales. -/
  | vqz (t : XY) (d : Reg) (sa : Reg) (sb : Reg) (fmt : FmtCode) (rnd : Bool) (sty : Ty) (gs : Reg)
  /-- VDQ (R91). Dequantise 32 blocked-format elements to BF16, FP16 or FP32. -/
  | vdq (t : XY) (d : Reg) (sa : Reg) (sb : Reg) (fmt : FmtCode) (dty : Ty) (gs : Reg)
  /-- VAMAX (R165). Update g[D] with the largest element magnitude of the source as FP32. -/
  | vamax (t : XY) (d : Reg) (sa : Reg) (sty : Ty)
  /-- VUPDC (R158). Apply FP32 updates to BF16 weights with 8-bit carried remainders. -/
  | vupdc (t : XY) (d : Reg) (sa : Reg) (sb : Reg)
  /-- VCVT (R126). Convert 32 lanes between BF16, FP16 and FP32 with the selected rounding. -/
  | vcvt (t : XY) (d : Reg) (sa : Reg) (rnd : Bool) (sty : Ty) (dty : Ty)
  /-- MCFG (R94). Judge and queue a new operand-format pairing and layer tag, returning a status. -/
  | mcfg (t : XY) (d : Reg) (fmtA : FmtCode) (fmtB : FmtCode) (tag : Byte)
  /-- MLDB (R132). Queue staging of B with its tile scale, or loading of the drain bank from XA32. -/
  | mldb (t : XY) (sa : Got) (sb : Reg) (acc : Bool)
  /-- MMA (R136). Queue an accumulation of A times the staged B into the fill bank. -/
  | mma (t : XY) (sa : Reg) (sb : Reg) (k : Half) (z : Bool)
  /-- MSWAP (R93). Queue an exchange of the fill and drain bank designations. -/
  | mswap (t : XY)
  /-- MDRAIN (R140). Convert the drain bank to a format and write it to the scratchpad, ending the bank's pass. -/
  | mdrain (t : XY) (d : Sent) (sa : Reg) (sb : Reg) (fmt : FmtCode) (rnd : Bool)
  /-- MATRIX_QUEUE_HEAD (R46). A queued MCFG, MLDB or MSWAP reaches the head of the matrix command queue and takes effect. -/
  | matrixQueueHead (t : XY)
  /-- MMA_START (R95). A queued MMA begins its first K-step once the engine is free and an allowed cycle comes. -/
  | mmaStart (t : XY)
  /-- MMA_COMPLETE (R136). An MMA's last K-step completes and its bank is no longer awaiting a result. -/
  | mmaComplete (t : XY) (bad : List BadBlock) (flips : List (Nat × Word32))
  /-- MDRAIN_COMPLETE (R141). An MDRAIN has written its outputs and writes OK or TAINTED to g[D]. -/
  | mdrainComplete (t : XY)
  /-- QOPEN (R262). Open a send channel by sending an OPEN with its window to the receiving queue. -/
  | qopen (t : XY) (d : Reg) (sa : Reg) (sb : Reg) (ch : Chan) (pin : Bool)
  /-- QSEND (R263). Send a message on an open channel once its credit covers the record, drawing a Valiant word if unpinned. -/
  | qsend (t : XY) (d : Reg) (sa : Reg) (sb : Reg) (ch : Chan)
  /-- QWAIT (R99). Hold until the named queue is not empty, then return the head record offset. -/
  | qwait (t : XY) (d : Got) (q : QNum)
  /-- QPEEK (R99). Return the head record offset, or all ones if the queue is empty. -/
  | qpeek (t : XY) (d : Got) (q : QNum)
  /-- QPOP (R261). Release the head record and send a MSG_ACK with its credit to the sender. -/
  | qpop (t : XY) (d : Got) (q : QNum)
  /-- QCLOSE (R264). Begin closing a channel, holding its status until the credit has returned. -/
  | qclose (t : XY) (d : Reg) (ch : Chan)
  /-- SEND_STALL (R98). The send-stall timer of a held QSEND expires; it completes STALLED and sends nothing. -/
  | sendStall (t : XY)
  /-- MSG_INJECTED (R98). The last byte of a QSEND's message leaves the local buffer and its status becomes OK. -/
  | msgInjected (t : XY)
  /-- CLOSE_SEND (R264). A closing channel's credit has returned to rec(W) and the CLOSE is sent. -/
  | closeSend (t : XY) (ch : Chan)
  /-- RESPONSE_TIMEOUT (R252). A transaction, OPEN or CLOSE response timer expires and it completes with an error or NOT_READY. -/
  | responseTimeout (t : XY) (k : TimerKind)
  /-- SGET (R100). Take one DATA or END token from an input port into a half of v[D]. -/
  | sget (t : XY) (d : Reg) (p : Port) (h : Bool) (gk : Reg)
  /-- SPUT (R100). Send a half of v[D] as DATA or END on an output port with credit. -/
  | sput (t : XY) (d : Reg) (p : Port) (h : Bool) (fin : Bool)
  /-- SGETM (R100). Start stream DMA of a count of tokens from an input port to the scratchpad. -/
  | sgetm (t : XY) (d : Sent) (sa : Reg) (sb : Reg) (p : Port)
  /-- SPUTM (R100). Start stream DMA of a count of tokens from the scratchpad to an output port. -/
  | sputm (t : XY) (d : Reg) (sa : Reg) (sb : Reg) (p : Port) (fin : Bool)
  /-- SPASS (R180). Start forwarding tokens from a CORE input to a CORE output. -/
  | spass (t : XY) (d : Reg) (sb : Reg) (p : Port) (q : Port)
  /-- STREAM_DMA_COMPLETE (R101). An SGETM, SPUTM or SPASS ends by count, END, EPOCH, error or slot switch and writes its count. -/
  | streamDmaComplete (t : XY) (k : Nat)
  /-- SGETM_LINE_FLUSH (R100). Eight cycles pass without a new token and SGETM writes its partial line. -/
  | sgetmLineFlush (t : XY) (k : Nat)
  /-- TOKEN_ARRIVAL (R176). A token arrives on a stream link into the receiver's input or configuration entries, with SBP checked. -/
  | tokenArrival (t : XY) (p : Port) (err : TokenErr)
  /-- ROUTED_FORWARD (R179). A head token is forwarded on its ROUTED outputs, detour or fork once every destination can take it. -/
  | routedForward (t : XY) (p : Port)
  /-- CREDIT_RETURN (R175). A credit pulse on a stream link returns to the sender's counter for the slot. -/
  | creditReturn (t : XY) (p : Port) (crpErr : Bool)
  /-- DETOUR_LINE_WRITE (R200). A detour ring writes a gathered line after 8 tokens or 8 idle cycles. -/
  | detourLineWrite (t : XY)
  /-- DETOUR_MARKER_RELEASE (R197). An END or EPOCH waiting at a detour goes to DT_OUT once the ring is empty. -/
  | detourMarkerRelease (t : XY)
  /-- CSW (R190). Switch the active slot once no hold applies, or return a refusal status. -/
  | csw (t : XY) (d : Reg) (slot : Reg)
  /-- CLOAD (R186). Validate a bundle and load the own section into a slot, then send foreign sections. -/
  | cload (t : XY) (d : Reg) (sa : Got) (slot : Reg)
  /-- CLOAD_COMPLETE (R186). The CLOAD status arrives after 8 + a + f cycles and sending of foreign sections begins. -/
  | cloadComplete (t : XY)
  /-- CONFIG_TOKEN_SEND (R186). The configuration path sends the next foreign section token, one per cycle. -/
  | configTokenSend (t : XY)
  /-- CONFIG_TOKEN (R189). A CONFIG token at the head of a configuration buffer is forwarded toward DEST or written into the slot. -/
  | configToken (t : XY) (p : Port)
  /-- CFLUSH (R192). Discard an inactive slot's parked tokens and empty its detour ring. -/
  | cflush (t : XY) (d : Reg) (slot : Reg)
  /-- CFLUSH_Q (R192). As CFLUSH, and release every record in the slot's queues with acknowledgement. -/
  | cflushQ (t : XY) (d : Got) (slot : Reg)
  /-- EPOCH (R193). Send an EPOCH marker naming a target slot and load tag on each masked output port. -/
  | epoch (t : XY) (d : Reg) (mask : Reg) (slot : Reg)
  /-- AUTO_SWITCH (R196). A route-only tile switches slot by itself once marker-complete and its target is valid. -/
  | autoSwitch (t : XY)
  /-- STEP (R103). A tile arrives at the partition barrier and holds. -/
  | step (t : XY) (d : Reg)
  /-- STEP_RELEASE (R103). All tiles have arrived; they are released together with the new step number and status. -/
  | stepRelease (p : PartId)
  /-- ROTATION_WINDOW (R428). Due walk steps of a running partition take the barrier window opened by the last arrival. -/
  | rotationWindow (p : PartId) (crcBad : List Nat)
  /-- PHASE (R104). Request a phase-table entry for the partition. -/
  | phase (t : XY) (ix : Reg)
  /-- GTC (R373). Write the field's GTC in ns to g[D]. -/
  | gtc (t : XY) (d : Reg)
  /-- EVT (R72). Set SW_EVT and write a trace record with the operand. -/
  | evt (t : XY) (sa : Reg)
  /-- FENCE (R105). Start a local, global or combined fence that orders later accesses. -/
  | fence (t : XY) (d : Reg) (mode : Reg)
  /-- FENCE_COMPLETE (R105). Every earlier access has taken effect; the fence writes 0 and releases held accesses. -/
  | fenceComplete (t : XY)
  /-- HALT (R106). Stop the core in HALT, set HALTED and write a trace record. -/
  | halt (t : XY)
  /-- TC_CTRL_WRITE (R68). A write to TC_CTRL sets RUN and MULTI_SLOT, or is refused with CTRL_REFUSED. -/
  | tcCtrlWrite (t : XY) (val : Word64)
  /-- TC_SLOT_WRITE (R69). A write to a slot descriptor, ignored for the active slot while running. -/
  | tcSlotWrite (t : XY) (n : SlotNum) (val : Word64)
  /-- TC_EVENT_WRITE (R70). A write-one-to-clear of TC_EVENT bits. -/
  | tcEventWrite (t : XY) (val : Word64)
  /-- TC_RNG_SEED_HI_WRITE (R61). Commit the 128-bit generator seed once earlier draws are made. -/
  | tcRngSeedHiWrite (t : XY) (val : Word64)
  /-- TC_SEND_STALL_WRITE (R70). Set the send-stall timeout, storing at least 0x1000. -/
  | tcSendStallWrite (t : XY) (val : Word64)
  /-- REGISTER_WRITE (R67). A write to a control-block register that has no behaviour of its own. -/
  | registerWrite (t : XY) (own : Bool) (off : Half) (val : Word64)
  /-- ZEROISE_DONE (R74). A scratchpad zeroise finishes and waiting accesses proceed. -/
  | zeroiseDone (t : XY)
  /-- CORRECTION_WRITEBACK (R213). A corrected row is written back in an idle cycle or a forced slot after 1,024 cycles. -/
  | correctionWriteback (t : XY) (row : Nat)
  /-- SCRUB_READ (R215). A bank's scrub interval reads one row in an idle cycle or forced slot and advances its pointer. -/
  | scrubRead (site : SiteId) (bank : Nat) (up : Upset)
  /-- READ_REQ (R223). A READ_REQ reaches its scratchpad target and is served through the narrow port. -/
  | readReq (pid : Nat)
  /-- WRITE (R256). A WRITE reaches its scratchpad target, lands in lines and is acknowledged. -/
  | writeReq (pid : Nat)
  /-- READ_RSP (R256). A READ_RSP reaches the requester and completes its piece. -/
  | readRsp (pid : Nat)
  /-- WRITE_ACK (R86). A WRITE_ACK reaches the requester and completes its piece. -/
  | writeAck (pid : Nat)
  /-- ERROR (R87). An ERROR reaches the requester and completes the transaction as an error response. -/
  | errorRsp (pid : Nat)
  /-- MSG (R259). A MSG train's head reaches the queue unit; the record is placed, landed and QD_WP advanced. -/
  | msg (pid : Nat)
  /-- MSG_ACK (R263). A MSG_ACK reaches the sender and adds its credit to the channel. -/
  | msgAck (pid : Nat)
  /-- OPEN (R262). An OPEN reaches the receiver, which judges the window and answers. -/
  | openReq (pid : Nat)
  /-- OPEN_RSP (R262). An OPEN_RSP reaches the sender and QOPEN writes its status. -/
  | openRsp (pid : Nat)
  /-- CLOSE (R264). A CLOSE reaches the receiver, which subtracts the credit from WINSUM and answers. -/
  | closeReq (pid : Nat)
  /-- CLOSE_RSP (R264). A CLOSE_RSP reaches the sender and frees the channel. -/
  | closeRsp (pid : Nat)
  /-- TRAIN_FORWARD (R245). A router forwards a train on an output virtual channel, checking CRC and discarding at fenced hops. -/
  | trainForward (pid : Nat) (err : TrainErr) (ctlpErr : Bool)
  /-- CONTEXT_FLUSH_END (R268). Every router has held no packet of the reset context for 4,096 cycles and the flush ends. -/
  | contextFlushEnd (p : PartId)
  /-- DRAM_REQUEST (R231). A request reaches a DRAM controller complex and takes effect on its line. -/
  | dramRequest (pid : Nat) (errs : List LineErr)
  /-- REFRESH_WINDOW (R232). A complex refreshes a bank at its interval; requests to it wait. -/
  | refreshWindow (dc : Nat) (bank : RefreshBank) (active : Bool)
  /-- CALIBRATION_WINDOW (R232). A channel runs periodic calibration for 3 µs every 1 ms. -/
  | calibrationWindow (ch : Nat) (active : Bool)
  /-- PATROL_SCRUB (R233). Once per 400 µs a channel reads its next line, correcting or poisoning it. -/
  | patrolScrub (ch : Nat) (err : LineErr)
  /-- CHANNEL_FAILURE (R235). A DRAM channel fails in service, an uncorrectable event for all its lines. -/
  | channelFailure (ch : Nat)
  /-- COMMIT_WITHDRAWAL (R463). A held write reaches the commit hold limit; C becomes none and held writes are released. -/
  | commitWithdrawal (p : PartId)
  /-- HOST_WINDOW_REQUEST (R311). A Cuff-H turns a host-window train into PCIe requests, or answers an error. -/
  | hostWindowRequest (pid : Nat)
  /-- HOST_COMPLETION (R312). A PCIe completion or its 50 ms timeout ends a host-window read. -/
  | hostCompletion (port : HPort) (tag : Nat) (res : HostRes)
  /-- BAR2_REQUEST (R310). A host memory request at BAR2 is checked and sent into the mesh, or refused. -/
  | bar2Request (f : Fn) (off : Nat) (len : Nat) (data : Option (List Byte))
  /-- SQ_TAIL_DOORBELL (R319). A host writes a new SQ tail index; the cuff fetches and starts commands. -/
  | sqTailDoorbell (f : Fn) (qp : Nat) (tail : Nat) (cmds : List (List Byte))
  /-- CQ_HEAD_DOORBELL (R319). A host writes a new CQ head index, freeing completion slots. -/
  | cqHeadDoorbell (f : Fn) (qp : Nat) (head : Nat)
  /-- COMPLETION_ENTRY (R321). The cuff writes a completion entry at the CQ tail once a slot is free. -/
  | completionEntry (port : HPort) (qp : Nat)
  /-- COMPLETION_INTERRUPT (R321). The pair's vector is raised, at most once per 2 µs, covering entries written. -/
  | completionInterrupt (port : HPort) (qp : Nat)
  /-- LOAD_CONFIG (R323). Copy a bundle into a tile and load it as CLOAD does into a slot. -/
  | loadConfig (port : HPort) (qp : Nat) (host : List Byte)
  /-- LAUNCH (R324). Prepare every tile of the partition and set RUN, starting the program in a slot. -/
  | launch (port : HPort) (qp : Nat)
  /-- LAUNCH_COMPLETE (R324). Every tile is in HALT, or a tile faults, and LAUNCH completes. -/
  | launchComplete (p : PartId)
  /-- COPY (R325). Move bytes between host and device addresses in 8 KiB segments. -/
  | copy (port : HPort) (qp : Nat) (host : List Byte)
  /-- STEP_COMMIT (R464). Commit the partition's current step if untainted and its copy is fault-free. -/
  | stepCommit (port : HPort) (qp : Nat)
  /-- SQ_FENCE (R320). The FENCE command holds later commands of its scope until earlier ones complete. -/
  | sqFence (port : HPort) (qp : Nat)
  /-- SIGNAL (R326). Write a value to an address and optionally raise a vector, possibly waiting for a step. -/
  | signal (port : HPort) (qp : Nat)
  /-- SIGNAL_ON_STEP (R326). A waiting SIGNAL fires once the partition's step number reaches its STEP. -/
  | signalOnStep (port : HPort) (qp : Nat) (cid : Nat)
  /-- PERST (R327). PERST# asserted or the link lost resets the port's functions, queue pairs and contexts. -/
  | perst (port : HPort)
  /-- PERST_RELEASE (R474). PERST_x_N goes high and the Cuff-H answers configuration requests within 80 ms. -/
  | perstRelease (port : HPort)
  /-- HOST_WINDOW_REGION (R311). A write to a host-window region descriptor, applying to later requests. -/
  | hostWindowRegion (w : WReq) (ix : Nat) (sub : Nat) (data : List Byte)
  /-- CREATE_PARTITION (R314). Create a partition of whole fields, generating keys and unfencing inner seams. -/
  | createPartition (w : WReq) (data : List Byte)
  /-- RELEASE_PARTITION (R317). Release a partition, freeing granules, keys, connections, settings and fields. -/
  | releasePartition (w : WReq) (data : List Byte)
  /-- MOVE_PARTITION (R316). Give a partition a new hole-free rectangle and zeroise its tiles. -/
  | movePartition (w : WReq) (data : List Byte)
  /-- TRANSFER_PARTITION (R318). Give an idle or out-of-service partition a new owning port and function. -/
  | transferPartition (w : WReq) (data : List Byte)
  /-- BIND_CONTEXT (R315). Bind a free context handle to an idle partition. -/
  | bindContext (w : WReq) (data : List Byte)
  /-- UNBIND_CONTEXT (R315). Context-reset a context and return its partition to IDLE. -/
  | unbindContext (w : WReq) (data : List Byte)
  /-- CREATE_QUEUE_PAIR (R319). Assign a queue pair to a function with its rings and vector. -/
  | createQueuePair (w : WReq) (data : List Byte)
  /-- DELETE_QUEUE_PAIR (R319). Delete a queue pair unless a non-LAUNCH command is outstanding. -/
  | deleteQueuePair (w : WReq) (data : List Byte)
  /-- ALLOCATE_GRANULES (R238). Zero-fill a range of free granules and record the owner partition. -/
  | allocateGranules (w : WReq) (data : List Byte)
  /-- RELEASE_GRANULES (R238). Free a range of granules owned by a partition. -/
  | releaseGranules (w : WReq) (data : List Byte)
  /-- INTERLEAVE_MODE (R228). Change the DRAM interleave mode, carrying granule 1,343 over to the new mapping. -/
  | interleaveMode (w : WReq) (data : List Byte)
  /-- QUEUE_SETUP (R257). Set up or disable a tile's queue ring through entry 0x2810. -/
  | queueSetup (w : WReq) (data : List Byte)
  /-- SLOT_MODE (R206). Change a partition's slot mode, applying MULTI_SLOT to every tile and resetting credits. -/
  | slotMode (w : WReq) (sub : Nat) (data : List Byte)
  /-- RECONFIGURATION_MODE (R206). Set a partition's reconfiguration mode while it is quiet. -/
  | reconfigurationMode (w : WReq) (sub : Nat) (data : List Byte)
  /-- SCALE_TABLE_DESCRIPTOR (R171). Register or change a partition's scale table descriptor. -/
  | scaleTableDescriptor (w : WReq) (sub : Nat) (data : List Byte)
  /-- SCALE_TABLE_SNAPSHOT (R172). Read a partition's scale table, copying each record stably across steps. -/
  | scaleTableSnapshot (w : WReq) (sub : Nat) (unstable : List Nat)
  /-- CLEAR_HISTOGRAMS (R154). Writing 1 zeroes the wide-mode histograms. -/
  | clearHistograms (w : WReq) (data : List Byte)
  /-- PROTECTED_REGIONS (R464). Write a partition's protected-region descriptors, clearing fault counts and setting C to none. -/
  | protectedRegions (w : WReq) (sub : Nat) (data : List Byte)
  /-- CONNECTION_DESCRIPTOR (R287). Write an XDT connection descriptor, enabling or disabling the connection. -/
  | connectionDescriptor (w : WReq) (ix : Nat) (sub : Nat) (data : List Byte)
  /-- APERTURE (R305). Write a remote-device aperture descriptor. -/
  | aperture (w : WReq) (ix : Nat) (sub : Nat) (data : List Byte)
  /-- PREFERRED_REFERENCE (R360). Write the preferred reference, switching to it at once if it is good. -/
  | preferredReference (w : WReq) (data : List Byte)
  /-- SITE_TEST (R437). Queue a test of one site at its next walk visit or in place. -/
  | siteTest (w : WReq) (data : List Byte)
  /-- FIELD_TEST (R437). Run full BIST and the Ochre set on a field in no partition. -/
  | fieldTest (w : WReq) (data : List Byte)
  /-- DRAM_CALIBRATION_REQUEST (R437). Run one extra full calibration of each channel of a complex. -/
  | dramCalibrationRequest (w : WReq) (data : List Byte)
  /-- TEST_RESULT (R437). A requested test completes and writes a result record to 0x5021. -/
  | testResult (k : Nat) (res : TestRes) (ochre : Byte) (failed : List (SiteId × SiteFault))
  /-- CLEAR_LATCHED_CLASSES (R444). Clear latched event classes, releasing ALERT_N when no masked bit remains. -/
  | clearLatchedClasses (w : WReq) (data : List Byte)
  /-- CONTEXT_RESET_WRITE (R468). A write to 0x6000:01 decides a context reset of a handle. -/
  | contextResetWrite (w : WReq) (data : List Byte)
  /-- COMPUTE_RESET_WRITE (R458). A write to 0x6000:02 decides a compute reset. -/
  | computeResetWrite (w : WReq) (data : List Byte)
  /-- FULL_RESET_WRITE (R458). A write to 0x6000:03 decides a full reset. -/
  | fullResetWrite (w : WReq) (data : List Byte)
  /-- CONTEXT_RESET_DONE (R459). A context reset ends: step number set, commands completed, partition BOUND. -/
  | contextResetDone (p : PartId)
  /-- COMPUTE_RESET_DONE (R328). Compute-reset bring-up reaches READY and vector 0 is raised. -/
  | computeResetDone (facts : BringUp)
  /-- FULL_RESET_DONE (R328). Full-reset bring-up reaches READY and vector 0 is raised. -/
  | fullResetDone (facts : BringUp)
  /-- RESET_ESCALATION (R461). A compute reset not READY in 5 s becomes a full reset, or a full reset not READY in 30 s fails. -/
  | resetEscalation
  /-- ACEEL_READ (R338). An Aceel READ request returns an entry's whole value. -/
  | aceelRead (h : Req)
  /-- ACEEL_WRITE (R338). An Aceel WRITE to an entry without behaviour of its own, saved entries written to flash. -/
  | aceelWrite (h : Req) (data : List Byte)
  /-- READ_BLOCK (R341). Read part of an entry from a snapshot taken at OFFSET 0. -/
  | readBlock (h : Req)
  /-- WRITE_BLOCK (R342). Stage part of an entry, performing one WRITE at the LAST block. -/
  | writeBlock (h : Req) (data : List Byte)
  /-- SUBSCRIBE (R345). Register or cancel an endpoint's NOTIFY subscription to an entry. -/
  | subscribe (h : Req) (period : Word32)
  /-- NOTIFY (R345). A subscription's period or change check sends a NOTIFY with the entry's value. -/
  | notify (ep : Endpoint) (ix : Nat) (sub : Nat)
  /-- SNAPSHOT_EXPIRY (R341). An endpoint's snapshot unused for 10 s is discarded. -/
  | snapshotExpiry (ep : Endpoint)
  /-- STAGING_EXPIRY (R342). An endpoint's staging without a block for 10 s is discarded. -/
  | stagingExpiry (ep : Endpoint)
  /-- HC_MBOX_GO (R350). Writing GO submits the mailbox request buffer. -/
  | hcMboxGo (f : Fn) (frame : List Byte)
  /-- HC_MBOX_DONE (R350). Writing 1 to DONE frees the response buffer. -/
  | hcMboxDone (f : Fn)
  /-- HC_MBOX_NOTIFY (R350). Writing 1 to NOTIFY frees the response buffer after a NOTIFY. -/
  | hcMboxNotify (f : Fn)
  /-- MAILBOX_RESPONSE (R350). A response or pending NOTIFY enters the mailbox response buffer and vector 2 is raised. -/
  | mailboxResponse (f : Fn)
  /-- SET_ENDPOINT_ID (R351). MCTP control command assigning the port's endpoint ID. -/
  | setEndpointId (port : MctpIn) (eid : Byte)
  /-- GET_ENDPOINT_ID (R351). MCTP control command returning the endpoint ID. -/
  | getEndpointId (port : MctpIn)
  /-- GET_MCTP_VERSION_SUPPORT (R351). MCTP control command returning supported versions. -/
  | getMctpVersionSupport (port : MctpIn)
  /-- GET_MESSAGE_TYPE_SUPPORT (R351). MCTP control command returning supported message types. -/
  | getMessageTypeSupport (port : MctpIn)
  /-- GET_VENDOR_DEFINED_MESSAGE_SUPPORT (R351). MCTP control command returning vendor-defined message support. -/
  | getVendorDefinedMessageSupport (port : MctpIn)
  /-- GET_VERSION (R413). SPDM request answered with version 1.3. -/
  | getVersion (port : MctpIn)
  /-- GET_CAPABILITIES (R413). SPDM request answered with the responder's capabilities. -/
  | getCapabilities (port : MctpIn)
  /-- NEGOTIATE_ALGORITHMS (R413). SPDM request negotiating Falcon-1024 and SHA3-512. -/
  | negotiateAlgorithms (port : MctpIn)
  /-- GET_DIGESTS (R413). SPDM request for slot 0 certificate digests. -/
  | getDigests (port : MctpIn)
  /-- GET_CERTIFICATE (R413). SPDM request for the slot 0 certificate chain. -/
  | getCertificate (port : MctpIn) (slot : Nat) (off : Nat) (len : Nat)
  /-- CHALLENGE (R413). SPDM challenge signed with the identity key. -/
  | challenge (port : MctpIn) (slot : Nat) (nonce : List Byte)
  /-- GET_MEASUREMENTS (R413). SPDM request returning measurements of indexes 1 to 4. -/
  | getMeasurements (port : MctpIn) (ix : Nat) (nonce : List Byte)
  /-- NEIGHBOR_SOLICITATION (R352). An ICMPv6 Neighbor Solicitation for an own address is answered with an Advertisement. -/
  | neighborSolicitation (node : Option Nat) (target : List Byte)
  /-- PAUSE_FRAME (R280). A received PAUSE or PFC frame is discarded and counted. -/
  | pauseFrame (eth : Nat)
  /-- XDT_MSG (R288). An XDT MSG data frame is accepted, buffered or discarded, and assembled messages or control records act. -/
  | xdtMsg (eth : Nat) (fr : XFrame)
  /-- XDT_WRITE (R300). An XDT WRITE data frame is taken and the write enters the mesh with the connection's rights. -/
  | xdtWrite (eth : Nat) (fr : XFrame)
  /-- XDT_READ_REQ (R300). An XDT READ_REQ is taken and answered with a READ_RSP message. -/
  | xdtReadReq (eth : Nat) (fr : XFrame)
  /-- XDT_READ_RSP (R299). An XDT READ_RSP completes a remote read transaction. -/
  | xdtReadRsp (eth : Nat) (fr : XFrame)
  /-- XDT_ACK (R290). An ACK advances acknowledged frames, and a RESTART ACK restarts the connection. -/
  | xdtAck (eth : Nat) (fr : XFrame)
  /-- XDT_NAK (R290). A NAK retransmits the named frames and lowers the rate. -/
  | xdtNak (eth : Nat) (fr : XFrame)
  /-- XDT_CNP (R293). A CNP lowers the connection's rate by one-eighth. -/
  | xdtCnp (eth : Nat) (fr : XFrame)
  /-- XDT_FRAME_SEND (R293). A connection sends its next data frame when window and pacing allow. -/
  | xdtFrameSend (conn : Nat)
  /-- ACK_TIMER (R289). 2 µs after an unacknowledged in-order frame the receiver sends an ACK. -/
  | ackTimer (conn : Nat)
  /-- RETRANSMISSION_TIMEOUT (R290). The retransmission timer expires, resending the oldest frame or failing the connection. -/
  | retransmissionTimeout (conn : Nat)
  /-- RESTART_TIMER (R292). Every 100 ms a RESTARTING connection sends an ACK with RESTART. -/
  | restartTimer (conn : Nat)
  /-- AUTO_RESTART (R292). 100 ms after failure an AUTO_RESTART connection enters RESTARTING. -/
  | autoRestart (conn : Nat)
  /-- RATE_INCREASE (R293). 55 µs without loss signals raise the connection's rate by 12,500 Mb/s. -/
  | rateIncrease (conn : Nat)
  /-- APERTURE_REQUEST (R299). A mesh request to the remote-device window becomes an XDT message or an error. -/
  | apertureRequest (pid : Nat)
  /-- PTP_EVENT_MESSAGE (R302). An IEEE 1588 event message is timestamped, and the time port disciplines the GTC. -/
  | ptpEventMessage (eth : Nat) (ev : PtpEvent)
  /-- ETHERNET_LINK_CHANGE (R280). An Ethernet port gains or loses link after training. -/
  | ethernetLinkChange (eth : Nat) (up : Bool) (lanes : Byte)
  /-- REFERENCE_LOSS (R359). The active reference is judged lost and every PLL switches to the other. -/
  | referenceLoss (which : RefClk)
  /-- CCLK_RESTART (R367). PLL-C lock is confirmed and CCLK restarts at the new frequency. -/
  | cclkRestart (p : PartId)
  /-- PLL_LOCK_TIMEOUT (R369). PLL-C fails to lock within 20 µs; the field retries, then the partition drops to OP4. -/
  | pllLockTimeout (p : PartId) (f : Nat)
  /-- SYNC_PULSE (R375). A GTC sync pulse arrives and each field aligns its copy or raises a disagreement. -/
  | syncPulse (seen : List (Nat × Int))
  /-- SYNC_PULSE_MISSING (R376). No pulse from F24 within 2^10 ns of its due time; F18 takes over. -/
  | syncPulseMissing
  /-- GOVERNOR_CYCLE (R389). Every 100 µs the governor sets power k and point lowering for each partition. -/
  | governorCycle (m : GovMeas)
  /-- ENERGY_INTERVAL (R395). Every 100 µs energy is read and attributed to partitions and queue pairs. -/
  | energyInterval (m : EnergyMeas)
  /-- INPUT_FAULT (R380). An input out of limits removes power from every field. -/
  | inputFault
  /-- EMERGENCY_CAP (R380). Input power above 25 kW caps k at 8 in every field. -/
  | emergencyCap
  /-- CONVERTER_FAILURE (R381). An intermediate converter fails and the effective cap is reduced. -/
  | converterFailure
  /-- FIELD_SUPPLY_TRIP (R383). A field's e-fuse opens; neighbours fence it and the field is dead. -/
  | fieldSupplyTrip (f : Nat) (cause : TripCause)
  /-- DROOP_TRIP (R387). A droop detector, one of four in each block, trips and the block's droop value becomes 8. -/
  | droopTrip (f : Nat) (det : Nat)
  /-- DROOP_RAMP (R387). After the hold the droop value rises by 1 every 0.25 µs until 16. -/
  | droopRamp (f : Nat) (blk : Nat)
  /-- THERMAL_READING (R392). Every 100 µs site temperatures are read and the thermal ladder acts. -/
  | thermalReading (temps : List (SiteId × Nat))
  /-- THERMAL_RECOVERY (R392). Each 1 ms below threshold minus 3 °C the field's thermal value rises by 1. -/
  | thermalRecovery (f : Nat)
  /-- BLOCK_CLOCK_RESTART (R392). A block below 100 °C for 1 ms restarts CCLK. -/
  | blockClockRestart (f : Nat) (blk : Nat)
  /-- LANE_COMPARE_STEP (R20). Every 256 µs the Hem copy steps to the next lane; a disagreement marks the lane degraded. -/
  | laneCompareStep (bundle : Nat) (disagree : Bool)
  /-- WALK_STEP_DUE (R427). A row group's walk step falls due and steps at once or waits for a window. -/
  | walkStepDue (g : Nat) (crcBad : List Nat)
  /-- FORCED_ROTATION_WINDOW (R429). A step has waited the walk deadline; the XW49 holds the partition and steps. -/
  | forcedRotationWindow (p : PartId) (crcBad : List Nat)
  /-- VISIT_COMPLETE (R434). A walk visit of a vacated site passes or fails. -/
  | visitComplete (f : Nat) (row : Nat) (v : VisitRes) (fmax : List (Nat × Nat))
  /-- EVENT_FORWARD (R445). A forwarded TC_EVENT bit reaches its field controller, which raises its class and clears it. -/
  | eventForward (t : XY) (bit : Nat)
  /-- HEARTBEAT (R451). Every 32 ms controllers send heartbeats and the boot master heartbeat counts. -/
  | heartbeat (heard : List Nat)
  /-- CONTROLLER_HANG (R453). A field controller misses three heartbeats and is restarted. -/
  | controllerHang (f : Nat)
  /-- BOOT_MASTER_FAILOVER (R454). The standby becomes boot master and decides a compute reset. -/
  | bootMasterFailover
  /-- PWR_EN_HIGH (R474). PWR_EN goes high and the power-up sequence starts. -/
  | pwrEnHigh (facts : BootFacts)
  /-- BOOT_READY (R399). The cold boot reaches READY and vector 0 is raised. -/
  | bootReady (facts : BringUp)
  /-- PWR_EN_LOW (R474). PWR_EN goes low; a flash write completes and every rail is removed. -/
  | pwrEnLow
  /-- FORCE_OFF_N (R474). FORCE_OFF_N goes low and every rail is removed at once. -/
  | forceOffN
  /-- IMAGE_WRITE (R406). Check and program a firmware image into the non-booted NOR device. -/
  | imageWrite (w : WReq) (image : List Byte)
  /-- COMMIT_SVN (R407). Raise the fused minimum SVN to the running image's SVN. -/
  | commitSvn (w : WReq) (data : List Byte)
  /-- OWNER_KEY_SLOT (R414). A direct write of an owner key slot while no slot is valid. -/
  | ownerKeySlot (w : WReq) (sub : Nat) (data : List Byte)
  /-- DEBUG_POLICY (R414). A direct write of the debug policy while no slot is valid. -/
  | debugPolicy (w : WReq) (data : List Byte)
  /-- SET_SLOT (R415). Signed owner command setting an owner key slot. -/
  | setSlot (w : WReq) (data : List Byte)
  /-- CLEAR_SLOT (R415). Signed owner command clearing an owner key slot. -/
  | clearSlot (w : WReq) (data : List Byte)
  /-- SET_DEBUG_POLICY (R415). Signed owner command setting the debug policy. -/
  | setDebugPolicy (w : WReq) (data : List Byte)
  /-- RESTORE_DEFAULTS (R353). Write a saved-dictionary copy holding every default, effective at the next cold boot. -/
  | restoreDefaults (w : WReq) (data : List Byte)
  /-- DEBUG_UNLOCK (R417). An accepted unlock answer starts clearing secrets before scan is enabled. -/
  | debugUnlock (key : List Byte) (sig : List Byte)
  /-- UNLOCK_COMPLETE (R418). Every store reports clear; scan is enabled and every partition released. -/
  | unlockComplete
  /-- REFERENCE_RETURN (R360). A reference judged lost becomes good again; its status bit sets, and it may then be selected, but the XW49 does not revert to it. -/
  | referenceReturn (which : RefClk)
  /-- OPERATING_POINT_CCLK_STOP (R367). At the chosen GTC instant, at least 2 µs after the decision and on a 2^8 ns multiple, CCLK is gated in every field of the partition and the PLL retarget or voltage ramp begins. -/
  | operatingPointCclkStop (p : PartId)
  /-- MLDB_ACC_COMPLETE (R141). An MLDB with ACC = 1 finishes loading 16 KiB of XA32 into the drain bank after 8 + 64 cycles and leaves the matrix command queue. -/
  | mldbAccComplete (t : XY)
  /-- DETOUR_LINE_READ (R200). A detour ring reads a gathered line back and gives its tokens, in order and no sooner than 12 cycles after entry, to DT_OUT. -/
  | detourLineRead (t : XY)
  /-- CONTROLLER_RESTARTED (R453). A restarted field controller finishes reloading its verified firmware, within 0.3 s, and forwards the TC_EVENT bits left set meanwhile. -/
  | controllerRestarted (f : Nat)
  /-- HC_APERTURE (R310). A host write to HC_APERTURE sets BASE and ENABLE, mapping or unmapping BAR2 onto device addresses. -/
  | hcAperture (f : Fn) (val : Word64)
  /-- FUNCTION_RESET (R347). A reset of one PCIe function removes that function's mailbox subscriptions and resets the function alone. -/
  | functionReset (f : Fn)
  /-- VF_ENABLE (R308). The host enables or disables SR-IOV virtual functions of a port, changing which VFs exist for partitions, queue pairs and MSI-X vector 0. -/
  | vfEnable (port : HPort) (n : Nat)
deriving DecidableEq, Repr

end Sys2Proof
end

