-- ==== Sys2Proof/Decode.lean ====
section
/-!
DEFINITION. The command table's own decoder. No row of spec/opcode_table.json gives bits (the commands of the block have
no encoding of their own; the 32-bit and 64-bit instruction words that a tile's control core fetches are read by
Machine/TileDecode.lean), so no word spells a command.
-/
namespace Sys2Proof

/-- The command that a word of the table's bits spells: none, since the table gives no row any bits. -/
def decodeTableWord (_nbits _w : Nat) : Option Instr := none

end Sys2Proof
end

