-- ==== Sys2Proof/Config.lean ====
section
/-!
DEFINITION. What an implementation, the factory or the outside world fixes and the spec gives no value for. Every
constant is opaque: no proof can see its value, so a claim holds whatever it is (log entries 3, 5 and 7).
-/
namespace Sys2Proof

/-- A free value: the n-th value that the spec leaves open, as a number that its user cuts to size. -/
opaque Config.freeNat : Nat → Nat
/-- A free choice of one bit, for the n-th open choice at an address (R132). -/
opaque Config.freeBit : Nat → Nat → Bool

/-- 0x1000:05, set at manufacture. -/
opaque Config.serial : Word64
/-- 0x1000:06, the device's base MAC address, six bytes most significant first. -/
opaque Config.baseMac : Nat
/-- Vangoa's PCI vendor id (R351). -/
opaque Config.vendorId : Half
/-- 0x1000:08 at power-up, from flash. -/
opaque Config.hoursAtPowerUp : Word32
/-- 0x8000:01 and the fused vendor debug key digest (R397). -/
opaque Config.rootKeyDigest : BitVec 512
opaque Config.debugKeyDigest : BitVec 512
/-- 0x8000:02 as fused at manufacture. -/
opaque Config.fusedSvn : BitVec 6
/-- 0x8001:00 and 0x8002:00, set at manufacture. -/
opaque Config.identityKey : Nat → Byte
opaque Config.certChain : Nat → Byte
/-- 0x5820:01 and 0x5820:02 (R449). -/
opaque Config.creatorGuid : Nat → Byte
opaque Config.sectionGuid : Nat → Byte
/-- VERSION, SVN and OCHRE_VERSION of the images A (false) and B (true) that the device is delivered with. -/
opaque Config.imageVersion : Bool → Word32
opaque Config.imageSvn : Bool → BitVec 6
opaque Config.imageOchre : Bool → Word32
/-- The first 4,096 bytes of the image as delivered, and its Woad payload; the words of the instruction buffer of the slot that
Ochre is loaded into (R408). -/
opaque Config.imageHeader : Bool → Nat → Byte
opaque Config.imageWoad : Bool → List Byte
opaque Config.ochreWord : Nat → Word32
/-- Factory fmax of a site, by 272 F + 17 row + PC and index 3 point + trim, in units of 12.5 MHz (R370). -/
opaque Config.factoryFmax : Nat → Nat → BitVec 12
/-- Calibrated energy weights of a field: of TC_ACTi, and per byte of DMA (R395). -/
opaque Config.actWeight : Nat → Nat → Nat
opaque Config.dmaWeight : Nat → Nat
/-- Predicted power of the matrix work of one field at full XT2 issue and at a point, W (R391). -/
opaque Config.worstFieldPower : Nat → Nat

/-- SHAKE256 of 512 bits, SHA3-512 (R403, R412), Falcon-1024 verification of a signature under a key (R403) and
signing with the identity key (R411): published algorithms, left uninterpreted (log entry 5). -/
opaque Config.shake512 : List Byte → BitVec 512
opaque Config.sha3 : List Byte → BitVec 512
opaque Config.falconVerify : List Byte → List Byte → List Byte → Bool
opaque Config.identitySign : Nat → List Byte → List Byte
/-- The fused device secret (R397), the sealed private key in the security area, and its unsealing under the key derived from the
secret (R410). -/
opaque Config.deviceSecret : Nat
opaque Config.sealedIdentity : Nat
opaque Config.unseal : Nat → Nat → Nat
/-- The n-th owner nonce and the n-th debug challenge: random bytes (R415, R416). -/
opaque Config.nonce : Nat → Nat → Byte
opaque Config.challenge : Nat → Nat → Byte
/-- The SPDM encodings of the responder's answers (R413), which DSP0274 lays out and the spec does not repeat. -/
opaque Config.spdmAnswer : Nat → List Byte → List Byte

/-- Byte i of a stored line as AES-256-XTS deciphers it under a tweak when the key that it was written with is gone (R230): a
published algorithm, and a key that nothing outside the complexes knows. -/
opaque Config.undeciphered : BitVec 128 → List Byte → Nat → Byte
/-- The CRC-32C of a mesh flit over its data and control lanes, whose order the spec does not give (R241, log entry 121). -/
opaque Config.flitCrc : List Byte → Nat → Word32
/-- The bank of a DRAM line within its channel (R232: the spec gives no mapping of rows to banks). -/
opaque Config.dramBank : Nat → Nat
/-- A byte that the spec gives an entry and no value for: byte n of entry 256 index + sub (0x5801's SYNDROME of
the event with SEQ n). -/
opaque Config.entryByte : Nat → Nat → Byte

end Sys2Proof
end

