-- ==== Sys2Proof/Machine/State.lean ====
section
/-!
DEFINITION. The state of the XW49: every register, buffer, queue, map, counter, mode and pin the spec gives it, as
plain data. Most collections are sparse maps (SMap) that list only what differs from the reset value, so the state
right after the application of 72 V is small. Each field's docstring names the rule that gives it.
-/
namespace Sys2Proof.Machine

/-- Bytes of memory by address, in the canonical form of SMap: strictly rising addresses, no byte listed that is 0
(a scratchpad is zeroised before it is used, R74, R399; a granule is zero-filled at its allocation, R229). -/
abbrev Memory := List Host.Cell

/-! ### The tile -/

/-- TC_STATUS.CORE_STATE (Table 2.7). -/
inductive CoreState where
  | stopped
  | run
  | wait
  | barrier
  | halt
  | fault
deriving DecidableEq, Repr, Inhabited

/-- What the check bits of a 64-bit scratchpad word say when it is not clean (R212 to R214): one wrong bit, or a
word that decodes as a double-bit error (an upset of two bits, or the poison pattern). -/
inductive EccWord where
  | single
  | bad
deriving DecidableEq, Repr, Inhabited

/-- A stream token (Table 7.1). -/
structure Token where
  /-- DATA -/
  data : BitVec 256
  /-- KIND: 0 DATA, 1 EPOCH, 2 CONFIG, 3 END -/
  kind : BitVec 2
  /-- PAR: the odd parity bit of each byte of DATA, as the token carries it -/
  par : BitVec 32
  /-- SLOT -/
  slot : BitVec 2
  /-- LTAG -/
  ltag : Half
deriving DecidableEq, Repr, Inhabited

/-- A section that CONFIG tokens are loading into a slot (R189): the bytes so far, the next index expected, the
number of tokens the section has, and whether a token had a PAR error. -/
structure SecLoad where
  bytes : List Byte
  next : Nat
  total : Nat
  parBad : Bool
deriving DecidableEq, Repr, Inhabited

/-- A configuration slot (R54, Tables 2.10 and 7.3). -/
structure Slot where
  /-- VALID -/
  valid : Bool := false
  /-- LOAD_TAG -/
  tag : Half := 0
  /-- QMASK -/
  qmask : Half := 0
  /-- ENTRY -/
  entry : BitVec 12 := 0
  /-- INDIGO_WIDE -/
  wide : Bool := false
  /-- the instruction buffer: 4,096 words, an unlisted word being 0 (R481) -/
  ibuf : SMap Word32 := []
  /-- OUT_MODE, one byte per output port -/
  outMode : BitVec 32 := 0
  /-- IN_MASK, one byte per input port -/
  inMask : BitVec 32 := 0
  /-- DT_BASE, DT_LOG2, DT_OUT -/
  dtBase : Word32 := 0
  dtLog2 : Byte := 0
  dtOut : Byte := 0
  /-- FLAGS of the section header: AUTO, OVERLAP_NEXT, NEXT (Table 7.4) -/
  auto : Bool := false
  ovNext : Bool := false
  next : BitVec 2 := 0
  /-- the slot's section has been loaded or refused since the tile last left the slot, and whether refused (R195) -/
  judged : Bool := false
  refused : Bool := false
  /-- the section in progress (R189) -/
  load : Option SecLoad := none
deriving DecidableEq, Repr, Inhabited

/-- A waiting entry of the matrix command queue (R46). An MMA names its bank by identity, since the designation that
holds in program order is fixed at issue (R93), and carries what the scratchpad held at its issue (R132). -/
inductive MatCmd where
  | cfg (fmtA fmtB : FmtCode) (tag : Byte)
  | stage (off : Nat) (scale : Word32)
  | mma (bank : Bool) (aOff : Nat) (aScale : Word32) (k : Nat) (z : Bool) (snap : Memory)
  | swap
deriving DecidableEq, Repr

/-- The MMA that the engine is running (R95, R136). -/
structure MmaRun where
  bank : Bool
  aOff : Nat
  aScale : Word32
  bOff : Nat
  bScale : Word32
  k : Nat
  fmtA : FmtCode
  fmtB : FmtCode
  snap : Memory
deriving DecidableEq, Repr, Inhabited

/-- An accumulator pass that is open (R96), with its Indigo sub-block, mode and shadow (R144, R149). -/
structure Pass where
  wide : Bool
  sub : Nat
  tag : Byte
  shadow : List Word32
deriving DecidableEq, Repr, Inhabited

/-- An MDRAIN in progress: its destination register and status, whether it draws, whether it has ended an exact pass, whose compare
completes before the status is written (R145), and what it writes where (R121, R124, R141). -/
structure Drain where
  d : Sent
  st : Byte
  draw : Bool
  ends : Bool
  off : Nat
  bytes : List Byte
deriving DecidableEq, Repr, Inhabited

/-- The matrix engine and the Indigo check (R131 to R152). -/
structure Matrix where
  /-- the banks a0 and a1: 4,096 XA32 values, that of (i, j) at 64 i + j -/
  a0 : SMap Word32 := []
  a1 : SMap Word32 := []
  /-- which bank is the fill bank: false a0, true a1 (R93) -/
  fill : Bool := false
  /-- the configuration in force (R94): BF16 by BF16, TAG 0 -/
  fmtA : FmtCode := 2
  fmtB : FmtCode := 2
  tag : Byte := 0
  /-- the staged B: offset and tile scale (R132) -/
  staged : Option (Nat × Word32) := none
  /-- the matrix command queue, entries that wait (R46) -/
  queue : List MatCmd := []
  /-- the MMA in the engine -/
  running : Option MmaRun := none
  /-- MDRAINs in progress, oldest first -/
  drain : List Drain := []
  /-- MLDBs with ACC = 1 in progress, oldest first: the bank, the offset read, and whether the data arrives with wrong parity (R141,
  R214) -/
  accLoad : List (Bool × Nat × Bool) := []
  /-- the open passes of a0 and a1 (R96) -/
  pass0 : Option Pass := none
  pass1 : Option Pass := none
  /-- the sampler's LFSR, the epoch's o and s, the position in the epoch (R142) -/
  lfsr : Half := 1
  epO : Nat := 0
  epS : Nat := 1
  epM : Nat := 0
  /-- the sub-block of the most recent exact pass, and whether the next wide-eligible pass is wide (R149) -/
  lastSub : Nat := 0
  wideNext : Bool := false
deriving DecidableEq, Repr, Inhabited

/-- The route of a train (Table 9.6). -/
inductive Route where
  | valiant (mid : XY)
  | direct
  | detour (mid : XY)
  | unreachable
deriving DecidableEq, Repr, Inhabited

/-- A send channel's state (Table 3.17). -/
inductive ChanState where
  | free
  | opening
  | opened
  | closing
deriving DecidableEq, Repr, Inhabited

/-- A send channel (R262 to R264). -/
structure SendChan where
  st : ChanState := .free
  remote : Bool := false
  device : Half := 0
  dst : XY := ⟨0, 0⟩
  queue : BitVec 4 := 0
  pin : Bool := false
  /-- the window W and the available credit, bytes -/
  win : Nat := 0
  credit : Nat := 0
  seq : Half := 0
  /-- the register that the pending QOPEN or QCLOSE writes, and whether the CLOSE has been sent -/
  d : Reg := 0
  closeSent : Bool := false
  /-- the XDT connection of a remote channel (R297), and the TAG of the OPEN or CLOSE whose answer it awaits (R252, Table 9.3) -/
  conn : Nat := 0
  tag : Nat := 0
deriving DecidableEq, Repr, Inhabited

/-- A record or pad that has landed and is not yet released (R258, R259): the bytes it takes of the ring, whether it is
a pad, its sender's tile and channel, the device and connection of a remote one, and its load tag (R191). -/
structure Landed where
  size : Nat
  pad : Bool
  src : XY
  ch : BitVec 5
  remote : Option (Half × Nat)
  tag : Option Half
deriving DecidableEq, Repr, Inhabited

/-- A queue's four registers (Tables 9.9 to 9.12), and what has landed between RP and WP, oldest first: its load tags and the
connections of remote records, which the ring does not hold. -/
structure Queue where
  base : Half := 0
  log2 : BitVec 5 := 0
  maxmsg : BitVec 21 := 0
  winsum : BitVec 21 := 0
  wp : Word32 := 0
  rp : Word32 := 0
  recs : List Landed := []
deriving DecidableEq, Repr, Inhabited

/-- A QSEND that has issued and whose message is not yet fully injected (R263). -/
structure OutMsg where
  d : Reg
  ch : BitVec 5
  off : Nat
  len : Nat
  seq : Half
  pin : Bool
  route : Route
deriving DecidableEq, Repr, Inhabited

/-- The queue unit (R257 to R266). -/
structure QueueUnit where
  qs : SMap Queue := []
  chans : SMap SendChan := []
  /-- the QSEND that holds at issue: D, CH, offset, length (R98) -/
  held : Option (Reg × BitVec 5 × Nat × Nat) := none
  /-- issued messages, oldest first, at most 8 (R263) -/
  out : List OutMsg := []
  /-- the last QSEND to stall: its channel (for the record 0x2805, R266) -/
  stalled : BitVec 5 := 0
  /-- OPENs and CLOSEs sent, modulo 64: the TAG of the next -/
  asks : Nat := 0
deriving DecidableEq, Repr, Inhabited

/-- What a remote memory transaction is for (R85, R86). -/
inductive TxKind where
  | gld (d : Reg) (u : Bool) (sz : Size2)
  | gst (data : List Byte)
  | get (local_ : Nat)
  | put (local_ : Nat)
deriving DecidableEq, Repr, Inhabited

/-- An outstanding remote memory transaction (R49, R255): its range, its pieces still open, and whether one failed. -/
structure Tx where
  kind : TxKind
  addr : Nat
  len : Nat
  open_ : List Nat
  failed : Bool
deriving DecidableEq, Repr, Inhabited

/-- Which stream DMA operation runs (R100, R180). -/
inductive DmaKind where
  | getm
  | putm
  | pass
deriving DecidableEq, Repr, Inhabited

/-- A running SGETM, SPUTM or SPASS (R100, R101, R180). -/
structure StreamDma where
  kind : DmaKind
  d : Reg
  inP : Port
  outP : Port
  /-- local offset, tokens asked for (0: to END, SPASS only), tokens moved -/
  off : Nat
  total : Nat
  moved : Nat
  /-- SPUTM: send the last token as END -/
  fin : Bool
  /-- SGETM: tokens gathered and not yet written; SPUTM: tokens read and not yet sent -/
  line : List (BitVec 256)
  /-- SPUTM: the token after those read holds an uncorrectable word (R483) -/
  badNext : Bool
  /-- the operation has ended and its count may be written -/
  ended : Bool
  /-- SGETM: the byte of its first line whose parity is wrong at the array boundary (R214) -/
  bad : Option Nat
deriving DecidableEq, Repr, Inhabited

/-- A detour ring (R200): tokens gathering, written positions (read and write counts), the load tags of the tokens
in it, and tokens read back that wait for DT_OUT. -/
structure Ring where
  gather : List Token := []
  rd : Nat := 0
  wr : Nat := 0
  tags : List Half := []
  ready : List Token := []
deriving DecidableEq, Repr, Inhabited

/-- The foreign sections a CLOAD still has to send (R186): for each, its slot, DEST, LOAD_TAG, bytes; and the index of
the next token of the first. -/
structure CfgSend where
  slot : BitVec 2
  sections : List (Nat × Half × List Byte)
  index : Nat
deriving DecidableEq, Repr, Inhabited

/-- A CLOAD or LOAD_CONFIG that waits for an earlier one to finish its sending (R186, R323): register, slot, local
offset, the host command (port, queue pair, CID), and whether the bundle arrives with wrong parity (R214). -/
structure CloadReq where
  d : Reg
  slot : BitVec 2
  off : Nat
  host : Option (HPort × Nat × Nat)
  par : Bool
deriving DecidableEq, Repr, Inhabited

/-- A CLOAD that waits for its status (R186): register, status, slot, whether it loads an own section, and the host
command that asked for it. -/
structure CloadRec where
  d : Reg
  st : Byte
  slot : BitVec 2
  loads : Bool
  host : Option (HPort × Nat × Nat)
deriving DecidableEq, Repr, Inhabited

/-- A LOAD_CONFIG whose foreign sections are on their way (R323): the host command, the sections not yet judged at
their destinations (tile and slot), and how many were refused. -/
structure HostLoad where
  cmd : HPort × Nat × Nat
  left : List (Nat × BitVec 2)
  refused : Nat
deriving DecidableEq, Repr, Inhabited

/-- The stream ports (R173 to R202). Ports are keys 0 to 3. -/
structure StreamUnit where
  /-- the input token entries of each port, oldest first (R175, R181) -/
  inq : SMap (List Token) := []
  /-- the configuration buffer of each input port (R187) -/
  cfgq : SMap (List Token) := []
  /-- tokens on the link leaving each output port, oldest first -/
  link : SMap (List Token) := []
  /-- credits used on each output port by tokens of each slot, at key 4 port + slot; in single-slot mode all four are the pool's (R175) -/
  used : SMap Nat := []
  /-- configuration credits used on each output port (R187) -/
  cfgUsed : SMap Nat := []
  /-- credit pulses on the way back to each output port: the slot, or 4 for CFGCR (Table 7.1) -/
  pulses : SMap (List Nat) := []
  /-- output ports closed to a slot by a marker until the slot is left, at key 4 port + slot (R194) -/
  closed : SMap Bool := []
  /-- ROUTED outputs on which the marker at the head of each input has been forwarded (R195) -/
  fwd : SMap (BitVec 4) := []
  dmas : List StreamDma := []
  rings : SMap Ring := []
  cload : Option CloadRec := none
  /-- those that wait behind it -/
  cwait : List CloadReq := []
  /-- what the pending CLOAD will send, and the sending in progress -/
  cfgNext : Option CfgSend := none
  cfgSend : Option CfgSend := none
deriving DecidableEq, Repr, Inhabited

/-- What stands in program order from the oldest open fence on (R105): a FENCE that has issued and not completed, or an access of a
later instruction that waits for it in its unit. -/
inductive Held where
  | fence (d : Reg) (loc glob : Bool)
  | load (d : Reg) (a n : Nat) (sx : Bool) (up : Upset)
  | store (a : Nat) (l : List Byte) (bad : Option Nat)
  | vload (d : Reg) (a : Nat) (up : Upset)
  | vstore (a : Nat) (l : List Byte) (bad : Option Nat)
  /-- the oldest held SGETM or SPUTM, MMA, MLDB with ACC = 1, MDRAIN or message -/
  | dma
  | mma
  | acc
  | drain
  | msg
  | cload (q : CloadReq)
  /-- the landing of a GDMA.GET; the requests of a GLD, GST or GDMA.GET; the whole of a GDMA.PUT, by TAG -/
  | land (tag : Nat)
  | send (tag : Nat)
  | put (tag : Nat)
deriving DecidableEq, Repr, Inhabited

/-- A logical tile: control core, registers, scratchpad, generator, control block and units (Tables 2.1, 2.5). -/
structure Tile where
  /-- g1 to g31 (g0 is never listed, R80) -/
  g : SMap Word64 := []
  v : SMap Vec := []
  /-- the program counter, a 12-bit word index (R77); 0x1000 where it has run past the last word, so that the next
  fetch faults (R79) -/
  pc : BitVec 13 := 0
  st : CoreState := .stopped
  /-- TC_CTRL.RUN, TC_CTRL.MULTI_SLOT, the active slot -/
  run : Bool := false
  multi : Bool := false
  active : BitVec 2 := 0
  slots : SMap Slot := []
  /-- scalar and vector registers awaiting a result (R47) -/
  await : List (BitVec 5) := []
  awaitV : List (BitVec 5) := []
  /-- the STEP that waits at the barrier writes this register (R103) -/
  stepD : Option Reg := none
  /-- the open fences and what waits behind them, in program order (R105) -/
  fences : List Held := []
  /-- outstanding remote transactions by TAG, 0 to 63 (R49) -/
  tx : SMap Tx := []
  /-- the 3 MiB scratchpad and the words whose check bits are not clean, at word number -/
  mem : Memory := []
  ecc : SMap EccWord := []
  /-- rows (64-byte lines) whose corrected data waits to be written back: true where scrub read them last, so that a newer write
  to the row discards it (R213, R216) -/
  wback : SMap Bool := []
  zeroising : Bool := false
  /-- the generator s0 to s3 (R59), and TC_RNG_SEED_LO -/
  s0 : Word32 := 0
  s1 : Word32 := 0
  s2 : Word32 := 0
  s3 : Word32 := 0
  seedLo : Word64 := 0
  /-- TC_EVENT, TC_EVENT_EN (Table 2.11), TC_SEND_STALL -/
  event : BitVec 14 := 0
  eventEn : BitVec 14 := 0x3FFF
  /-- events that went from 0 to 1 enabled and have not yet reached the field controller, oldest first (R70, R445) -/
  raised : List Nat := []
  sendStall : Word32 := 0x00400000
  /-- TC_TRACE_WP and the trace buffer (R72) -/
  traceWp : Word32 := 0
  trace : SMap (BitVec 128) := []
  /-- records of events set while CCLK is stopped, which are written when it runs again (R72, R368) -/
  traceHeld : List (BitVec 128) := []
  /-- the words of the last correctable and the last uncorrectable error found by a read (ADDR of their events, Table 18.3) -/
  ceWord : Nat := 0
  ueWord : Nat := 0
  /-- TC_ACT0 to 7, TC_SLOTCYC0 to 3, TC_BAL_STALL, TC_OVF (Table 2.13) -/
  act : SMap Word64 := []
  slotCyc : SMap Word64 := []
  /-- TC_ACT0 to 7 as the last energy interval read them (R395) -/
  actSeen : SMap Word64 := []
  balStall : Word64 := 0
  ovf : Word32 := 0
  mat : Matrix := {}
  qu : QueueUnit := {}
  su : StreamUnit := {}
deriving DecidableEq, Repr, Inhabited

/-! ### Sites, rows, blocks, fields, seams -/

/-- How a site has received the Woad payload (R408). -/
inductive WoadPath where
  | mesh
  | debug
deriving DecidableEq, Repr, Inhabited

/-- A physical site (R13, R71, R148, R215, R370). -/
structure Site where
  /-- TC_CE and TC_INDIGO, which stay with the site (Table 2.15) -/
  ce : Word32 := 0
  indigo : Word32 := 0
  /-- the GTC of its most recent Indigo mismatch (R148) -/
  lastMismatch : Option Nat := none
  /-- latest temperature reading, degrees C (R392) -/
  temp : Nat := 0
  /-- fmax in units of 12.5 MHz, bit 15 guarded, at key 3 point + trim (R370, Table 14.6) -/
  fmax : SMap Half := []
  /-- defect-map cause, where the site is recorded failing (Table 17.8) -/
  failed : Option Byte := none
  /-- kept out of the grid for its frequency (R372) -/
  binCloaked : Bool := false
  /-- unproven after a fallback BIST (R423) -/
  unproven : Bool := false
  /-- the Woad payload has reached the site: by the mesh, or over the debug path (R408) -/
  woad : Option WoadPath := none
  /-- rows that scrub has read in each bank: the row pointer is this modulo 2,048 (R215) -/
  scrub : SMap Nat := []
  /-- words of the scratchpad of a site without a logical tile that are uncorrectable, since it was last zeroised (R213, R215) -/
  bad : List Nat := []
  /-- what the scratchpad and slot 0 of such a site hold: the Woad payload and Ochre, until they are zeroised (R408) -/
  mem : Memory := []
  slot : Slot := {}
  /-- CCLK cycles that a vacated site's zeroise still has to run (R74, Table 17.4) -/
  zeroLeft : Nat := 0
  /-- its router has failed BIST, so that no Woad payload passes (R408) -/
  routerBad : Bool := false
deriving DecidableEq, Repr, Inhabited

/-- A row's kind (Tables 1.7 and 17.7). -/
inductive RowKind where
  | spare
  | cloaked
  | binCloaked
  | broken
deriving DecidableEq, Repr, Inhabited

/-- A row of a field (R27, R33, R426). -/
structure Row where
  /-- the excluded site PC e -/
  e : Nat := 16
  kind : RowKind := .spare
  /-- a visit of the excluded site is in progress, and one that began by a request in place (R433, R437) -/
  visit : Bool := false
  /-- the GTC of each step that has fallen due and has not been taken, oldest first (R427, R428) -/
  due : List Nat := []
  /-- step counter of 0x5002 -/
  steps : Word32 := 0
  /-- sites in use that failed while the spare was under a visit, by PC, in the order of their failing (R435) -/
  waiting : List Nat := []
deriving DecidableEq, Repr, Inhabited

/-- A block (R14, R387, R392): its droop value, its hold, which of its four droop detectors have tripped since the value was
last 16, whether its CCLK is stopped for temperature, and whether it restarts in the field's next cycle with c = 0. -/
structure Block where
  droop : Nat := 16
  hold : Bool := false
  tripped : BitVec 4 := 0
  stopped : Bool := false
  restart : Bool := false
  /-- CCLK cycles of the block since power-up modulo 2^20: the interval count of every bank of its sites (R215) -/
  pace : BitVec 20 := 0
deriving DecidableEq, Repr, Inhabited

/-- 0x3005 STATE (Tables 15.3, 15.8). -/
inductive FieldPower where
  | on
  | offShort
  | offSupply
  | offThermal
  | offInput
  | offDefect
deriving DecidableEq, Repr, Inhabited

/-- The RV32IMC core of a field controller (R13): the program counter and the registers x1 to x31 that the instruction set gives it
(log entry 136). No command reads or writes them: what its firmware does is the commands' effect. -/
structure Rv32 where
  pc : Word32 := 0
  x : SMap Word32 := []
deriving DecidableEq, Repr, Inhabited

/-- A field (R13, R362 to R376, R382, R392, R451). -/
structure Field where
  power : FieldPower := .on
  watts : Half := 0
  /-- operating point, trims in mV by point, PLL locks (Table 14.7) -/
  op : Nat := 4
  trim : SMap Byte := []
  pllC : Bool := false
  pllF : Bool := false
  /-- CCLK stopped for an operating-point change or for loss of both references -/
  stopped : Bool := false
  /-- field cycle count, and the half cycle that OP2 leaves after an odd number of TCLK cycles (R364) -/
  cyc : Word64 := 0
  half : Bool := false
  /-- what the field's GTC copy holds beyond the common count, ns, and whether the copy holds its visible count until time
  reaches it (R373, R375) -/
  gtcOff : Int := 0
  gtcHeld : Bool := false
  /-- the smallest of the phase, power, emergency and thermal values that is in force in the field (R385, R386) -/
  cap : Nat := 16
  /-- thermal value (Table 15.5) and the hottest site -/
  thermal : Nat := 16
  hottest : Nat := 0
  /-- the field controller: hung, heartbeats missed in a row, GTC of its hangs (R451, R453) -/
  hung : Bool := false
  missed : Nat := 0
  hangs : List Nat := []
  /-- the controller's 256 KiB of private SRAM (R13), which no command reads or writes; R13 gives it no contents at reset, and it
  lists nothing there, every byte 0 (DESIGN CHOICE, log entry 136) -/
  sram : Memory := []
  core : Rv32 := {}
  /-- recorded in the defect map as a whole field: cause (R384, R453) -/
  defect : Option Byte := none
  /-- PLL lock retried once in the current change (R369) -/
  retried : Bool := false
deriving DecidableEq, Repr, Inhabited

/-- What a Hem lane does (R18, R20): it is unused, it carries a data lane, or it is itself judged bad. -/
inductive Hem where
  | unused
  | carries (lane : Nat)
  | bad
deriving DecidableEq, Repr, Inhabited

/-- A seam bundle (R15 to R22), numbered as Machine/Grid.lean says: how many of its lanes are judged bad, what its Hem lanes
H0 and H1 do, the data lane that the unused Hem lane copies, and the mark exhausted. -/
structure Bundle where
  bad : Nat := 0
  h0 : Hem := .unused
  h1 : Hem := .unused
  lane : Nat := 0
  exhausted : Bool := false
deriving DecidableEq, Repr, Inhabited

/-! ### Partitions -/

/-- Partition states (Table 12.7). -/
inductive PartState where
  | free
  | idle
  | bound
  | running
  | outOfService
deriving DecidableEq, Repr, Inhabited

/-- A protected-region descriptor (Table 18.11). -/
structure Region where
  copy0 : Nat
  copy1 : Nat
  count : Nat
  valid : Bool
deriving DecidableEq, Repr, Inhabited

/-- A step history record (Table 18.9). -/
structure StepRec where
  release : Word64
  duration : Word32
  spread : Half
  lastX : Byte
  lastY : Byte
deriving DecidableEq, Repr, Inhabited

/-- An operating-point change of a partition (R367): decided, CCLK stopped. -/
inductive OpChange where
  | decided (target : Nat)
  | stopped (target : Nat)
deriving DecidableEq, Repr, Inhabited

/-- A context reset in progress (R459): whether it is a rollback, an unbind, or for a lost field. -/
structure CtxReset where
  rollback : Bool
  unbind : Bool
  flushed : Bool
  start : Nat
  /-- SEQ of its cause (0x6000:07), and the tile whose event, once it is forwarded, is the cause of a rollback -/
  cause : Nat
  causeAt : Option XY
deriving DecidableEq, Repr, Inhabited

/-- Per-partition dictionary settings (R170, R206, R270, R396, R154). -/
structure PartCfg where
  /-- 0x2401, 0x2402, 0x2801, 0x2802 -/
  reconf : Byte := 0
  slotMode : Byte := 0
  box : Byte := 0
  stall : Word32 := 0x00400000
  /-- 0x3002: eight phase entries, point in the low byte, cap in the high byte; unlisted 0x1000 -/
  phases : SMap Half := []
  /-- 0x7801, 0x7803, 0x7881 and the policy that the next step boundary brings in -/
  scale : Word64 := 0
  seed : Word64 := 0
  policy : Byte := 0
  policyNext : Byte := 0
deriving DecidableEq, Repr, Inhabited

/-- A partition (R313 to R318, R366, R388 to R391, R463 to R467). -/
structure Part where
  st : PartState := .free
  port : HPort := .a
  fn : Nat := 0
  fx : Nat := 0
  fy : Nat := 0
  w : Nat := 0
  h : Nat := 0
  ctx : Option Nat := none
  cfg : PartCfg := {}
  /-- step number n (56 bits), committed step C, and whether the state being computed and state n are tainted -/
  n : Nat := 0
  c : Option Nat := none
  taint : Bool := false
  taintN : Bool := false
  rollbacks : Word32 := 0
  withdrawals : Word32 := 0
  /-- protected regions by descriptor number, fault counts at key 2 region + copy (R464) -/
  regions : SMap Region := []
  faults : SMap Nat := []
  /-- the STEP barrier: tiles arrived with the first's and last's GTC (R103, R467), and the last release -/
  arrived : List Nat := []
  firstAt : Nat := 0
  lastAt : Nat := 0
  lastRelease : Option Nat := none
  history : List StepRec := []
  /-- phase index, governor state 0x3006, current point and ceiling 0x4001 -/
  phase : BitVec 3 := 0
  powerK : Nat := 16
  reqPoint : Nat := 0
  /-- the predictor has not yet 10 ms of measurements, and the governor cycles measured so far (R391) -/
  worst : Bool := false
  measured : Nat := 0
  lowered : Bool := false
  lowCycles : Nat := 0
  fitCycles : Nat := 0
  op : Nat := 4
  ceiling : Nat := 4
  change : Option OpChange := none
  pendPoint : Option Nat := none
  /-- the LAUNCH outstanding: port, queue pair, CID (R324); the launch pair of energy (R395) -/
  launch : Option (HPort × Nat × Nat) := none
  pair : Option (HPort × Nat) := none
  /-- tiles that faulted while launched: the first is reported -/
  faulted : Option XY := none
  resetting : Option CtxReset := none
  /-- counters and records: 0x2403, 0x2404, 0x2805, 0x3003 -/
  deviations : Word64 := 0
  lastDev : List Byte := []
  lastStall : List Byte := []
  energy : Word64 := 0
  idle : Word64 := 0
  /-- a DRAM key pair exists (R230) -/
  key : Bool := false
deriving DecidableEq, Repr, Inhabited

/-! ### Mesh -/

/-- Packet types (Table 9.1). -/
inductive PktType where
  | readReq
  | write
  | msg
  | opn
  | cls
  | readRsp
  | writeAck
  | msgAck
  | openRsp
  | closeRsp
  | error
deriving DecidableEq, Repr, Inhabited

/-- The unit at which a train ends, beyond the router of its DST (R220, R254). -/
inductive Unit_ where
  | tile
  | dram
  | host (p : HPort)
  | cuffN (south : Bool)
deriving DecidableEq, Repr, Inhabited

/-- Where an injected request came from, when it is no tile: a BAR2 access, an XDT message, or a segment of a host
command, by port, queue pair, command number and segment (R310, R296, R325). -/
inductive Origin where
  | tile
  | bar2 (f : Fn) (id : Nat)
  | xdt (conn : Nat) (msgid : Nat)
  | cmd (p : HPort) (qp id seg : Nat)
deriving DecidableEq, Repr, Inhabited

/-- An input buffer of router b for one virtual channel (R246): of the hop from a, with port 0, or, where a is b, of one of the
units at b: the tile (port 0), a DRAM complex (1), or a cuff (2). Virtual channels: 0 VAL1, 1 VAL2, 2 DET. -/
structure Buf where
  a : XY
  b : XY
  vc : Nat
  port : Nat
deriving DecidableEq, Repr, Inhabited

/-- A train in the mesh (Tables 9.3, 9.4, 9.6): its header fields, payload and route, and the router that its head stands at. -/
structure Pkt where
  type : PktType
  src : XY
  dst : XY
  unit : Unit_
  origin : Origin
  route : Route
  /-- the router that holds its head, and whether that has reached MID -/
  at_ : XY
  passedMid : Bool
  /-- the unit that sends it -/
  source : Unit_ := .tile
  /-- its flits, from the buffer of its head backwards, and the order in which it came into that buffer (R245, R246); none
  once the unit where it ends has taken it -/
  trail : List (Buf × Nat) := []
  stamp : Nat := 0
  tag : Nat
  piece : Nat
  sys : Bool
  ctx : Nat
  addr : Nat
  len : Nat
  payload : List Byte
  /-- a GDMA.PUT whose bytes are still in the scratchpad: their local offset (R86) -/
  loc : Option Nat := none
  poison : Bool
  /-- the packets of the train that are poisoned, by number, and the first flit of each that carries POISON (R242, R483) -/
  badPkts : List (Nat × Nat) := []
  /-- the byte of its data whose parity is wrong when the data reaches the array boundary of its end (R214) -/
  parBad : Option Nat := none
  seq : Half
  queue : BitVec 4
  ch : BitVec 5
  pin : Bool
  /-- WINDOW or CREDIT in bytes; STATUS -/
  win : Nat
  status : Byte
  /-- a message or control record that came from, or goes to, another device: its device id and connection; and the
  tile at that device -/
  remote : Option (Half × Nat)
  far : XY
  /-- the partition whose rights a request has (R220, R300) -/
  part : Option Nat
  /-- what a DRAM request that is held has met on its lines, first line first (R234, R463) -/
  errs : List LineErr := []
deriving DecidableEq, Repr, Inhabited

/-- The mesh (R239 to R270). -/
structure Mesh where
  pkts : SMap Pkt := []
  nextId : Nat := 0
  /-- contexts whose packets are being flushed (R268): the partitions under reset -/
  flushing : List Nat := []
  /-- responses to a GDMA.GET that the requesting tile has taken and whose data waits there for a local fence (R105, R240), in the
  order of their coming -/
  waiting : List Pkt := []
  /-- entries into buffers so far; by output virtual channel and outward port, 1 + the input served last (R245, R295) -/
  order : Nat := 0
  served : SMap Nat := []
deriving DecidableEq, Repr, Inhabited

/-! ### DRAM -/

/-- A granule's owner, and SHARED (R229). -/
structure Granule where
  owner : Nat
  shared : Bool
deriving DecidableEq, Repr, Inhabited

/-- A DRAM channel (R232, R233, R235). -/
structure Channel where
  faulted : Bool := false
  calibrating : Bool := false
  patrol : Nat := 0
  passes : Nat := 0
deriving DecidableEq, Repr, Inhabited

/-- A DRAM controller complex (R231, R232, Tables 8.9 and 8.11). -/
structure Complex where
  lost : Bool := false
  refreshing : Option Nat := none
  refreshX : Byte := 1
  temp : Byte := 0
  corrected : Word64 := 0
  uncorrectable : Word64 := 0
  bytesRead : Word64 := 0
  bytesWritten : Word64 := 0
  /-- extra calibrations still to run on request (R437) -/
  extraCal : Nat := 0
deriving DecidableEq, Repr, Inhabited

/-- The LPDDR6 and its controllers (R224 to R238). Lines and bytes are keyed by device address less
0x0100_0000_0000. -/
structure Dram where
  mem : Memory := []
  /-- lines whose poison mark has been set or cleared singly -/
  poison : SMap Bool := []
  /-- channels poisoned whole within a granule (R235), at key 448 granule + 2 channel + 1 where the channel is that of
  LOCAL mode; a line in `poison` overrides it -/
  poisonCh : SMap Bool := []
  granules : SMap Granule := []
  channels : SMap Channel := []
  complexes : SMap Complex := []
  /-- interleave mode LOCAL, as the complexes use it -/
  loc : Bool := false
  /-- the device key of granule 1,343 -/
  devKey : Bool := false
  selfRefresh : Bool := false
  /-- writes held on a protected copy, and requests behind them on the same lines, in arrival order: packet ids (R463) -/
  held : List Nat := []
deriving DecidableEq, Repr, Inhabited

/-! ### Host ports -/

/-- A segment of a COPY, LOAD_CONFIG or SIGNAL in flight (R325): its pieces still open (those of its writing phase from
100 up), the bytes read by piece, and whether a piece failed. -/
structure SegRun where
  open_ : List Nat
  data : SMap (List Byte)
  bad : Bool
deriving DecidableEq, Repr, Inhabited

/-- The data movement of a host command: source, destination and length, which of them are host addresses, what the host
source holds, the next segment to start, those in flight, the offset of the lowest failing one, and whether the flushing read
of a COPY to the host has been issued (Table 12.9). -/
structure CopyRun where
  src : Nat
  dst : Nat
  len : Nat
  srcHost : Bool
  dstHost : Bool
  host : List Byte
  next : Nat
  segs : SMap SegRun
  failed : Option Nat
  flushing : Bool
deriving DecidableEq, Repr, Inhabited

/-- A command fetched from a submission queue and not completed (R320): the number of its fetch at the port, by which the
model knows it (two commands may carry one CID), its data movement, and the commands (pair and number) that a FENCE waits for. -/
structure HostCmd where
  id : Nat
  bytes : List Byte
  started : Bool
  run : Option CopyRun
  scope : List (Nat × Nat)
deriving DecidableEq, Repr, Inhabited

/-- A completion that waits to be written (R321), and whether it is a LAUNCH's (R319). -/
structure Completion where
  cid : Nat
  status : Byte
  result : Word64
  launch : Bool
deriving DecidableEq, Repr, Inhabited

/-- A queue pair (R319 to R321, Table 12.17). The SQ's head and tail are indices; the CQ's are counts, whose index is their
remainder and whose pass gives PHASE. -/
structure QPair where
  fn : Nat
  sqLog2 : Nat
  cqLog2 : Nat
  vector : Nat
  irq : Bool
  sqBase : Word64
  cqBase : Word64
  sqHead : Nat
  sqTail : Nat
  cqHead : Nat
  cqTail : Nat
  /-- commands between SQ head and tail, as the ring holds them; commands fetched and not completed -/
  posted : List (List Byte)
  cmds : List HostCmd
  done : List Completion
  /-- entries written since the vector was last raised, and the GTC at which it was -/
  pendIrq : Bool
  lastIrq : Option Nat
  /-- bytes moved for its commands in the current energy interval, by partition (R395) -/
  moved : SMap Nat
deriving DecidableEq, Repr, Inhabited

/-- A host-window region (Table 12.6). -/
structure HostRegion where
  base : Word64
  fn : Nat
  valid : Bool
  readOnly : Bool
  relaxed : Bool
  noSnoop : Bool
deriving DecidableEq, Repr, Inhabited

/-- An entry of a function's MSI-X table (R308). -/
structure MsixEntry where
  addr : Word64 := 0
  data : Word32 := 0
  masked : Bool := false
deriving DecidableEq, Repr, Inhabited

/-- A function's registers: HC_APERTURE, the mailbox (Tables 12.5 and 13.7), the MSI-X table and its pending bits by vector
(Table 12.3). -/
structure FnState where
  base : BitVec 22 := 0
  enable : Bool := false
  request : List Byte := []
  busy : Bool := false
  done : Bool := false
  notify : Bool := false
  tag : Half := 0
  response : List Byte := []
  /-- a response that is ready for the response buffer -/
  ready : Option (List Byte) := none
  msix : SMap MsixEntry := []
  pba : SMap Bool := []
deriving DecidableEq, Repr, Inhabited

/-- A read of the host window on its way to the host (R311, R312): the mesh request it answers. -/
structure HostRead where
  req : Pkt
  fn : Nat
deriving DecidableEq, Repr, Inhabited

/-- A PCIe port and its Cuff-H (R306 to R330). -/
structure Port_ where
  linkUp : Bool := false
  gen : Nat := 0
  width : Nat := 0
  vfs : Nat := 0
  /-- functions by number, queue pairs by number, regions by number, host reads by tag -/
  fns : SMap FnState := []
  qps : SMap QPair := []
  regions : SMap HostRegion := []
  reads : SMap HostRead := []
  /-- flushing reads of COPY by tag: pair and command number (Table 12.9) -/
  flushes : SMap (Nat × Nat) := []
  nextRead : Nat := 0
  /-- THE MODEL'S OWN: the number of the next command fetched at the port (R320) -/
  nextCmd : Nat := 0
  /-- BAR2 reads outstanding by id -/
  bar2 : SMap (Fn × Nat) := []
  nextBar2 : Nat := 0
  /-- MCTP endpoint id, 0 unassigned -/
  eid : Byte := 0
  /-- SPDM: algorithms negotiated -/
  spdm : Bool := false
  /-- the eight counters of 0x6800, at keys 0 to 7 -/
  counters : SMap Nat := []
  /-- 0x3004 by queue pair number, zeroed when the pair is created (R396) -/
  energies : SMap Word64 := []
deriving DecidableEq, Repr, Inhabited

/-! ### Scale-out -/

/-- A connection's state (Table 11.5). -/
inductive ConnState where
  | disabled
  | opened
  | restarting
  | failed
deriving DecidableEq, Repr, Inhabited

/-- An XDT frame queued or sent: opcode and header. -/
structure XOut where
  op : Nat
  fr : XFrame
deriving DecidableEq, Repr, Inhabited

/-- A WRITE or READ_REQ message of the peer that is being served in the mesh (R300, R301): its id, the PSN of its LAST
frame, its address and length, the pieces still open, the bytes read so far by piece, and whether a piece failed. A WRITE that has
failed stays with no piece open until the peer has acknowledged the ERROR record. -/
structure XServe where
  msgid : Nat
  wr : Bool
  lastPsn : Word32
  addr : Nat
  len : Nat
  open_ : List Nat
  failed : Bool
  data : SMap (List Byte)
deriving DecidableEq, Repr, Inhabited

/-- An XDT connection (R286 to R294, Table 11.5). -/
structure Conn where
  /-- the 40 writable bytes of the descriptor -/
  desc : List Byte := []
  st : ConnState := .disabled
  rate : Nat := 0
  nextPsn : Word32 := 0
  expPsn : Word32 := 0
  /-- frames sent and not acknowledged, oldest first; new frames that wait; frames to retransmit -/
  unacked : List XOut := []
  fresh : List XOut := []
  resend : List XOut := []
  retx : Word32 := 0
  /-- frames buffered past a gap, by PSN; frames taken of messages not complete, in PSN order -/
  buffered : SMap XOut := []
  partial_ : List XOut := []
  /-- in-order frames since the last ACK; consecutive expiries; the retransmission timer in microseconds -/
  unackedRx : Nat := 0
  expiries : Nat := 0
  timerUs : Nat := 64
  /-- GTC of the last rate reduction by CNP or NAK, the last NAK sent and the gap it names, and the last CNP sent -/
  lastCut : Option Nat := none
  /-- GTC since when no CNP, NAK, expiry or increase has changed RATE; when the last data frame started, and its bits on the wire
  with preamble and gap, by which RATE spaces the next (R293) -/
  quiet : Nat := 0
  started : Nat := 0
  wireBits : Nat := 0
  lastNak : Option (Nat × Word32) := none
  lastCnp : Option Nat := none
  nextMsg : Half := 0
  /-- mesh requests carried, by message id (R299) -/
  requests : SMap Pkt := []
  /-- the peer's requests being served, in PSN order -/
  serves : List XServe := []
deriving DecidableEq, Repr, Inhabited

/-- A remote-device aperture (Table 11.7). -/
structure Ap where
  valid : Bool
  conn : Nat
  part : Nat
  base : Nat
deriving DecidableEq, Repr, Inhabited

/-- An Ethernet port (Tables 11.10 and 11.11). -/
structure Eth where
  up : Bool := false
  lanes : Byte := 0
  anDone : Bool := false
  fec : Bool := false
  counters : SMap Nat := []
  /-- 1 + the connection served last (R293) -/
  served : Nat := 0
  /-- timestamps of the last IEEE 1588 event message sent and received (R302) -/
  txStamp : Option Nat := none
  rxStamp : Option Nat := none
deriving DecidableEq, Repr, Inhabited

/-- Scale-out (R280 to R305). -/
structure Xdt where
  eths : SMap Eth := []
  conns : SMap Conn := []
  aps : SMap Ap := []
  /-- 0x7040:02 to 04 -/
  rateAdj : Int := 0
  offset : Int := 0
  timeState : Byte := 0
  stepped : Bool := false
deriving DecidableEq, Repr, Inhabited

/-! ### Dictionary and Aceel -/

/-- A READ_BLOCK snapshot (R341). -/
structure Snapshot where
  tag : Nat
  ix : Nat
  sub : Nat
  bytes : List Byte
deriving DecidableEq, Repr, Inhabited

/-- A subscription (R345): its period in ms (0 on change), the value last sent, and an undelivered NOTIFY. -/
structure Subscription where
  ep : Endpoint
  ix : Nat
  sub : Nat
  tag : Nat
  period : Nat
  last : List Byte
  undelivered : Option (List Byte × Bool)
deriving DecidableEq, Repr, Inhabited

/-- An answered request kept for a retry (R349). -/
structure Answered where
  ep : Endpoint
  req : Req
  payload : List Byte
  answer : List Byte
  at_ : Nat
deriving DecidableEq, Repr, Inhabited

/-- How a frame leaves the XW49: the packets or the datagram, with its source port and hop limit (R351, R352). -/
structure Carried where
  units : List (List Byte)
  port : Nat
  hop : Nat
deriving DecidableEq, Repr, Inhabited

/-- A request that has been performed and is answered OK when what it has begun has ended (R344): its payload, the partition whose
context reset it awaits, and the fields whose zeroises it awaits. -/
structure Waits where
  req : Req
  data : List Byte
  part : Option Nat := none
  fields : List Nat := []
deriving DecidableEq, Repr, Inhabited

/-- Aceel: what the endpoints hold (R341 to R349); the requests whose reset or zeroise has not ended yet (R344); and the GTC at
which a request last found a PLCA beacon seen (0x1100:09). -/
structure Aceel where
  snaps : List (Endpoint × Snapshot) := []
  stages : List (Endpoint × Snapshot) := []
  subs : List Subscription := []
  answered : List Answered := []
  waiting : List Waits := []
  beacon : Option Nat := none
deriving DecidableEq, Repr, Inhabited

/-- The saved dictionary (R353, R354): the values in force of the RW entries that have been written and have no field of
their own (volatile ones among them), at key 256 index + sub; the saved ones in each of the two flash copies, with their
generations and validity. Beside it each NOR device holds a copy of the maps and of the security area (R397); the two copies
of either are written together and so hold the same (log entry 114), and `maps` and `area` say which of them are good, NOR
device 0 in bit 0. -/
structure Saved where
  live : SMap (List Byte) := []
  copy0 : SMap (List Byte) := []
  copy1 : SMap (List Byte) := []
  gen0 : Nat := 0
  gen1 : Nat := 0
  valid0 : Bool := false
  valid1 : Bool := false
  maps : BitVec 2 := 0
  area : BitVec 2 := 0
deriving DecidableEq, Repr, Inhabited

/-! ### Events, resets, tests, security, clocks, power -/

/-- An event record (Table 18.3), the fields that the model gives values to. -/
structure Event where
  time : Nat
  seq : Nat
  cls : Nat
  severity : Nat
  mechanism : Nat
  action : Nat
  field : Nat
  row : Nat
  pc : Nat
  part : Nat
  x : Nat
  y : Nat
  ctx : Nat
  ochre : Nat
  op : Nat
  temp : Nat
  /-- AGE: operating hours at the raising -/
  age : Word32
  addr : Nat
  /-- VOLTAGE: the field's rail, mV -/
  volts : Nat
  /-- the lane number that SYNDROME holds for class 0x0B -/
  lane : Option Nat
deriving DecidableEq, Repr, Inhabited

/-- Events (R444 to R448). -/
structure Events where
  /-- the event log by SEQ mod 4,096, SEQ of the next event -/
  log : SMap Event := []
  seq : Nat := 0
  overwritten : Nat := 0
  suppressed : Nat := 0
  latched : Word64 := 0
  /-- interrupt masks of ports A and B (0x5805) -/
  maskA : Word64 := 0x7FFFFFE
  maskB : Word64 := 0x7FFFFFE
  /-- for each rate-limited class and place, the GTC of its last record, at key 2^32 class + place (R446) -/
  lastLogged : SMap Nat := []
  /-- the newest event that is not Informational (0x5820:03) -/
  cper : Option Event := none
deriving DecidableEq, Repr, Inhabited

/-- The device-wide reset in progress (R458, R460). -/
inductive DevReset where
  | compute
  | full
deriving DecidableEq, Repr, Inhabited

/-- 0x1000:09 (Table 13.8). -/
inductive DevState where
  | booting
  | ready
  | computeReset
  | fullPending
  | failed
deriving DecidableEq, Repr, Inhabited

/-- Resets and boot (R397 to R401, R458 to R462). -/
structure Boot where
  st : DevState := .booting
  step : Byte := 0
  /-- the boot master's and the standby's fields (R398, R451) -/
  master : Option Nat := none
  standby : Option Nat := none
  /-- the fields whose controllers were candidates at the election (R398, R451) -/
  candidates : List Nat := []
  heartbeat : Word32 := 0
  resetting : Option DevReset := none
  /-- GTC at which each compute reset was decided, newest first (R461) -/
  computeAt : List Nat := []
  decidedAt : Nat := 0
  /-- SEQ of the cause of the reset in progress -/
  cause : Nat := 0
  /-- 0x6000:04 to 06 and 07 -/
  contexts : Nat := 0
  computes : Nat := 0
  fulls : Nat := 0
  lastReset : List Byte := []
  /-- the Cloak map is marked confirmed in flash; the image that booted; a first-ever boot is running (R400) -/
  confirmed : Bool := false
  firstEver : Bool := false
  /-- the cold boot in progress: what the power-up has found, ns since power enable, the fields held off for this boot only,
  how often the boot master's field has died in it, and the images found not to verify in it, A in bit 0 (R401, R405) -/
  facts : Option BootFacts := none
  elapsed : Nat := 0
  heldOff : List Nat := []
  deaths : Nat := 0
  badImages : BitVec 2 := 0
  /-- 0x6011: the port, and the function, that owned each captured field's partition at capture (R309, R468) -/
  captured : SMap Fn := []
  /-- the dictionary stops answering (full reset step 1) -/
  silent : Bool := false
deriving DecidableEq, Repr, Inhabited

/-- A test request (R437). -/
structure TestReq where
  kind : Nat
  a : Nat
  row : Nat
  pc : Nat
deriving DecidableEq, Repr, Inhabited

/-- Self-test and repair (R420 to R443). -/
structure Tests_ where
  requests : List TestReq := []
  /-- results, newest first, 16 bytes each -/
  results : List (List Byte) := []
deriving DecidableEq, Repr, Inhabited

/-- Security (R402 to R419). -/
structure Security where
  minSvn : Nat := 0
  runSvn : Nat := 0
  /-- versions of images A and B, none if invalid; the image that booted; firmware and Ochre versions running -/
  imageA : Option (Nat × Nat × Nat) := none
  imageB : Option (Nat × Nat × Nat) := none
  /-- the headers that 0x8012 has written; none: as delivered -/
  headerA : Option (List Byte) := none
  headerB : Option (List Byte) := none
  /-- the Woad payloads of the images that 0x8012 has written; none: as delivered -/
  woadA : Option (List Byte) := none
  woadB : Option (List Byte) := none
  booted : Byte := 0
  version : Word32 := 0
  ochre : Word32 := 0
  /-- owner slots 1 to 4: FLAGS and KEY_DIGEST; debug policy -/
  slots : SMap (Byte × BitVec 512) := []
  policy : Byte := 3
  /-- the count of owner nonces drawn (R415), and whether the last one is in force -/
  nonce : Nat := 0
  nonceHeld : Bool := false
  /-- 0x8000:05, an accepted unlock that is clearing secrets, whether the identity key is held -/
  dbg : Byte := 0
  unlocking : Option Byte := none
  identity : Bool := false
  challenge : Nat := 0
  /-- what the last record of index 3 measured (R412) -/
  cloakSeen : List Byte := []
  /-- the measurement log: records (TIME, INDEX, VALUE), written, overwritten -/
  log : List (Nat × Nat × BitVec 512) := []
  written : Nat := 0
  overwritten : Nat := 0
deriving DecidableEq, Repr, Inhabited

/-- Clocks and time (R357 to R377). -/
structure Clocks where
  /-- the common count of the GTC, ns, and its 32-bit fraction (R374) -/
  gtc : Nat := 0
  frac : Nat := 0
  /-- active reference, none when both are lost (0x4000:01); reference status bits -/
  active : Option RefClk := some .a
  goodA : Bool := false
  goodB : Bool := false
  /-- sync source: 0 F24, 1 F18, 0xFF unsynchronised -/
  sync : Byte := 0
  /-- CCLK is stopped everywhere: both references were lost, until a full reset (Table 14.1), or none was found at power-up;
  and whether the PLLs hold over, so that the GTC runs without a reference -/
  lost : Bool := false
  holdover : Bool := false
deriving DecidableEq, Repr, Inhabited

/-- Power (R378 to R396). -/
structure Power where
  /-- the rails are on: power enable has come and nothing has removed them -/
  on : Bool := false
  converters : Nat := 8
  emergency : Bool := false
  volts : Word32 := 0
  watts : Word32 := 0
  hottest : Nat := 0
  /-- operating hours, and the time of the next one that has passed, ns -/
  hours : Word32 := 0
  upNs : Nat := 0
deriving DecidableEq, Repr, Inhabited

/-- The sideband pins (Table 19.4): true is high. -/
structure Pins where
  pwrEn : Bool := false
  pwrGood : Bool := false
  alertN : Bool := true
  thermtripN : Bool := true
  perstA : Bool := false
  perstB : Bool := false
  forceOffN : Bool := true
  /-- a latched input fault (R474) -/
  faultLatched : Bool := false
deriving DecidableEq, Repr, Inhabited

/-- What the block sends to the world outside: a history the model keeps (log entry 6). -/
inductive Output where
  | msix (f : Fn) (vector : Nat)
  | hostWrite (f : Fn) (addr : Nat) (data : List Byte) (relaxed noSnoop : Bool)
  | hostReadReq (f : Fn) (addr len tag : Nat) (noSnoop : Bool)
  | bar2Data (f : Fn) (id : Nat) (data : List Byte)
  | bar2Abort (f : Fn) (id : Nat)
  | bar2Unsupported (f : Fn)
  | aceel (ep : Endpoint) (frame : List Byte) (by_ : Carried)
  | mctp (port : HPort) (packets : List (List Byte))
  | spdm (port : HPort) (packets : List (List Byte))
  | advert (node : Option Nat) (target : List Byte)
  | frame (eth : Nat) (op : Nat) (fr : XFrame) (image : List Byte)
deriving DecidableEq, Repr

/-- The whole state. -/
structure State where
  /-- the commands that wait, first in, first out -/
  pending : List Instr := []
  /-- logical tiles at key 112 y + x -/
  tiles : SMap Tile := []
  /-- sites at key 272 F + 17 row + PC, rows at 16 F + row, blocks at 16 F + block, fields at F -/
  sites : SMap Site := []
  rows : SMap Row := []
  blocks : SMap Block := []
  fields : SMap Field := []
  bundles : SMap Bundle := []
  loads : List HostLoad := []
  parts : SMap Part := []
  /-- context handle to partition (0x2012) -/
  ctxs : SMap Nat := []
  mesh : Mesh := {}
  dram : Dram := {}
  portA : Port_ := {}
  portB : Port_ := {}
  xdt : Xdt := {}
  aceel : Aceel := {}
  saved : Saved := {}
  /-- device-wide counters of the dictionary, at key 256 index + subindex -/
  totals : SMap Nat := []
  /-- 0x7882 wide tags (bit t), and the histograms at key 16 tag + bin -/
  wideTags : BitVec 256 := BitVec.allOnes 256
  hist : SMap Nat := []
  events : Events := {}
  boot : Boot := {}
  tests : Tests_ := {}
  sec : Security := {}
  clk : Clocks := {}
  power : Power := {}
  pins : Pins := {}
  out : List Output := []
  /-- THE MODEL'S OWN: how many free values have been drawn (log entry 3) -/
  free : Nat := 0
  /-- THE MODEL'S OWN: the tile whose core takes the next idle tick (log entry 4) -/
  turn : Nat := 0
deriving DecidableEq, Repr, Inhabited

/-- Why the machine stops with a fault. The XW49 has no fault that stops the block: an instruction fault stops one
tile's core (R107) and is a next state. -/
inductive Fault where
  /-- Raised by nobody: kept so that the type is a closed inductive with a name. Safe. -/
  | none_
deriving DecidableEq, Repr

/-- Why a command is refused. -/
inductive Refusal where
  /-- Raised by the dispatch for a command that has no meaning yet. Safe. -/
  | notModelled (mnemonic : String)
deriving DecidableEq, Repr

/-- The block right after the application of 72 V, PWR_EN low: nothing runs and nothing is held but fuses and flash
(R379). Every field is at the default or reset value of its table. -/
def State.reset : State := {}

end Sys2Proof.Machine
end

