-- ==== Sys2Proof/Machine/Store.lean ====
section
/-!
DEFINITION. Sparse maps, bytes and bit fields: the operations that State's collections are read and written through.
-/
namespace Sys2Proof.Machine

/-! ### Sparse maps -/

/-- The value at a key; d is what an unlisted key reads as. -/
def mget {α : Type} (d : α) : SMap α → Nat → α
  | [], _ => d
  | (k', v) :: r, k => if k' = k then v else mget d r k

/-- The map without the key. -/
def mdel {α : Type} : SMap α → Nat → SMap α
  | [], _ => []
  | (k', v) :: r, k => if k' = k then r else (k', v) :: mdel r k

/-- The map with a value at the key, in rising order. -/
def mput {α : Type} : SMap α → Nat → α → SMap α
  | [], k, v => [(k, v)]
  | (k', v') :: r, k, v =>
    if k < k' then (k, v) :: (k', v') :: r
    else if k = k' then (k, v) :: r
    else (k', v') :: mput r k v

/-- The map with the value at the key, kept canonical: a default value is not listed. -/
def mset {α : Type} [DecidableEq α] (d : α) (m : SMap α) (k : Nat) (v : α) : SMap α :=
  if v = d then mdel m k else mput m k v

/-- Keys rise strictly. -/
def mrising {α : Type} : SMap α → Bool
  | [] => true
  | [_] => true
  | (a, _) :: (b, v) :: r => decide (a < b) && mrising ((b, v) :: r)

/-- The canonical form: keys rise and no default value is listed. -/
def mwf {α : Type} [DecidableEq α] (d : α) (m : SMap α) : Bool :=
  mrising m && m.all (fun p => decide (p.2 ≠ d))

/-- A map whose absent keys hold nothing. -/
def mfind {α : Type} : SMap α → Nat → Option α
  | [], _ => none
  | (k', v) :: r, k => if k' = k then some v else mfind r k

/-- Apply a function to every listed value. -/
def mmap {α : Type} (f : Nat → α → α) : SMap α → SMap α
  | [] => []
  | (k, v) :: r => (k, f k v) :: mmap f r

/-- The sum of a measure of the listed values. -/
def sumOf {α : Type} (f : Nat × α → Nat) (m : SMap α) : Nat := m.foldl (fun n e => n + f e) 0

/-- Memory in its canonical form. -/
def Memory.wf (m : Memory) : Bool := mwf (0 : Byte) m

/-- One byte of memory; an address that nothing has written reads 0 (R74, R229). -/
def Memory.byte (m : Memory) (a : Nat) : Byte := mget (0 : Byte) m a

def Memory.setByte (m : Memory) (a : Nat) (b : Byte) : Memory := mset (0 : Byte) m a b

/-- n bytes from an address up. -/
def Memory.bytes (m : Memory) (a : Nat) : Nat → List Byte
  | 0 => []
  | n + 1 => m.byte a :: Memory.bytes m (a + 1) n

/-- Store bytes from an address up. -/
def Memory.store (m : Memory) (a : Nat) : List Byte → Memory
  | [] => m
  | b :: r => Memory.store (m.setByte a b) (a + 1) r

/-! ### Bytes: every multi-byte value is little-endian (R10) -/

def leNat : List Byte → Nat
  | [] => 0
  | b :: r => b.toNat + 256 * leNat r

/-- The n low bytes of a number, least significant first. -/
def natBytes : Nat → Nat → List Byte
  | 0, _ => []
  | n + 1, v => BitVec.ofNat 8 v :: natBytes n (v / 256)

/-- The n low bytes of a number, most significant first (addresses held in transmission order, R10). -/
def beBytes (n v : Nat) : List Byte := (natBytes n v).reverse

def beNat (l : List Byte) : Nat := leNat l.reverse

/-- Byte i of a list, 0 past its end. -/
def byteAt (l : List Byte) (i : Nat) : Byte := l.getD i 0

/-- Bytes [j:i] of a list as a number. -/
def fieldOf (l : List Byte) (i n : Nat) : Nat := leNat ((l.drop i).take n)

/-- Bits [hi:lo] of a number. -/
def bits (v hi lo : Nat) : Nat := (v >>> lo) % 2 ^ (hi - lo + 1)

def bit (v i : Nat) : Bool := v.testBit i

def b2n (b : Bool) : Nat := if b then 1 else 0

def allZero (l : List Byte) : Bool := l.all (fun b => b = 0)

/-- n zero bytes. -/
def zeros (n : Nat) : List Byte := List.replicate n 0

def one (v : Nat) : List Byte := natBytes 1 v

/-- The list cut or extended with zeros to n bytes. -/
def padTo (n : Nat) (l : List Byte) : List Byte := (l ++ zeros (n - l.length)).take n

/-- Replace bytes i, i+1, … of a list. -/
def patch (l : List Byte) (i : Nat) (new : List Byte) : List Byte :=
  l.take i ++ new ++ l.drop (i + new.length)

def ceilDiv (a b : Nat) : Nat := (a + b - 1) / b

/-! ### CRC-32C and parity -/

/-- One bit of the reflected CRC-32C (polynomial 0x1EDC6F41). -/
def crcBit (c : Nat) : Nat := if c % 2 = 1 then (c / 2) ^^^ 0x82F63B78 else c / 2

def crcBits : Nat → Nat → Nat
  | 0, c => c
  | n + 1, c => crcBits n (crcBit c)

def crcGo : List Byte → Nat → Nat
  | [], c => c
  | b :: r, c => crcGo r (crcBits 8 (c ^^^ b.toNat))

/-- CRC-32C (R184, R241, R282). -/
def crc32c (l : List Byte) : Nat := crcGo l 0xFFFFFFFF ^^^ 0xFFFFFFFF

/-- Number of one bits among the n low bits. -/
def popGo : Nat → Nat → Nat
  | 0, _ => 0
  | n + 1, v => v % 2 + popGo n (v / 2)

/-- The odd parity bit of one byte: the nine bits hold an odd number of ones. -/
def oddParity (b : Nat) : Nat := if popGo 8 b % 2 = 0 then 1 else 0

/-- PAR of 32 data bytes: PAR[n] is the odd parity bit of byte n (Table 7.1). -/
def parGo : Nat → Nat → Nat
  | 0, _ => 0
  | n + 1, v => oddParity (v % 256) + 2 * parGo n (v / 256)

def parOf (d : BitVec 256) : BitVec 32 := BitVec.ofNat 32 (parGo 32 d.toNat)

/-- The token's parity is right at every byte. -/
def Token.parOk (k : Token) : Bool := k.par == parOf k.data

/-! ### Saturating counters -/

/-- A 32-bit count that stays at all ones (R356). -/
def satAdd32 (c : Word32) (n : Nat) : Word32 := BitVec.ofNat 32 (min (c.toNat + n) 0xFFFFFFFF)

def satAdd16 (c : Half) (n : Nat) : Half := BitVec.ofNat 16 (min (c.toNat + n) 0xFFFF)

end Sys2Proof.Machine
end

