-- ==== Sys2Proof/Machine/Flags.lean ====
section
/-!
DEFINITION. The codes that the block reports with: instruction and dictionary status codes (Tables 3.3 and 13.3), the
bits of TC_EVENT (Table 2.11), and the event classes, severities, mechanisms and actions of Tables 18.2 and 18.3. The
tile's core has no condition flags: comparisons write a register (R82) and branches compare registers (R83).
-/
namespace Sys2Proof.Machine

/-! ### Status codes (Tables 3.3 and 13.3) -/
def stOk : Byte := 0x00
def stNoObject : Byte := 0x01
def stNoSubindex : Byte := 0x02
def stAccess : Byte := 0x03
def stType : Byte := 0x04
def stRange : Byte := 0x05
def stBusy : Byte := 0x06
def stNotReady : Byte := 0x07
def stStalled : Byte := 0x08
def stSecurity : Byte := 0x09
def stTainted : Byte := 0x0A
def stInUse : Byte := 0x0B

/-- A status as an instruction writes it: zero-extended (R81). -/
def status64 (b : Byte) : Word64 := BitVec.ofNat 64 b.toNat

/-! ### Bits of TC_EVENT (Table 2.11) -/
def evParity : Nat := 0
def evEccCe : Nat := 1
def evEccUe : Nat := 2
def evIndigo : Nat := 3
def evOverflow : Nat := 4
def evBalStall : Nat := 5
def evSendStall : Nat := 6
def evAddrFault : Nat := 7
def evCfgRefused : Nat := 8
def evCtrlRefused : Nat := 9
def evThermStop : Nat := 10
def evDroop : Nat := 11
def evHalted : Nat := 12
def evSwEvt : Nat := 13
/-- The names under which a PARITY bit that an SBP or CRP error, or the CRC of a migration, has set is forwarded: their classes are
others (R174, R432, R445, Table 18.2). -/
def evLane : Nat := 14
def evMigrate : Nat := 15
/-- The bits of TC_EVENT and the names that stand for PARITY. -/
def isAlias (h : Nat) : Bool := decide (h = evLane) || decide (h = evMigrate)

/-- Bits [3:0], [7], [10] and [11] of TC_EVENT_EN read as 1 and ignore writes (R70). -/
def evForced : BitVec 14 := 0xC8F

/-! ### Event classes (Table 18.2), CPER severities, mechanisms and actions (Table 18.3) -/
def clDataMove : Nat := 0x01
def clControlLane : Nat := 0x02
def clSramCe : Nat := 0x03
def clSramUe : Nat := 0x04
def clDramCe : Nat := 0x05
def clDramUe : Nat := 0x06
def clIndigo : Nat := 0x07
def clOverflow : Nat := 0x08
def clTileFault : Nat := 0x09
def clSiteFailed : Nat := 0x0A
def clSeamLane : Nat := 0x0B
def clSeamLink : Nat := 0x0C
def clRefclk : Nat := 0x0D
def clSupply : Nat := 0x0E
def clThermal : Nat := 0x0F
def clDroop : Nat := 0x10
def clPower : Nat := 0x11
def clFieldTime : Nat := 0x12
def clClock : Nat := 0x13
def clHeartbeat : Nat := 0x14
def clSendStall : Nat := 0x15
def clDeviation : Nat := 0x16
def clXdt : Nat := 0x17
def clFirmware : Nat := 0x18
def clReset : Nat := 0x19
def clStep : Nat := 0x1A

def sevRecoverable : Nat := 0
def sevFatal : Nat := 1
def sevCorrected : Nat := 2
def sevInfo : Nat := 3

def meParity : Nat := 1
def meCrc : Nat := 2
def meEcc : Nat := 3
def meIndigo : Nat := 4
def meBist : Nat := 5
def meOchre : Nat := 6
def meWalk : Nat := 7
def meMonitor : Nat := 8
def meHeartbeat : Nat := 9
def meTimer : Nat := 10
def meFirmware : Nat := 11

def acNone : Nat := 0
def acTaint : Nat := 1
def acContext : Nat := 2
def acCompute : Nat := 3
def acFull : Nat := 4
def acCloak : Nat := 5
def acOutOfService : Nat := 6
def acFieldDead : Nat := 7

end Sys2Proof.Machine
end

