-- ==== Sys2Proof/Machine/Grid.lean ====
section
/-!
DEFINITION. The logical grid over fields, rows and sites (R8, R9, R12, R27, R32), holes (R33, R34), blocks (R14),
partitions over fields (R313), and the field's view of time (R373).
-/
namespace Sys2Proof

/-- The key of a logical tile. -/
def XY.key (t : XY) : Nat := 112 * t.y + t.x
def XY.ofKey (k : Nat) : XY := ⟨k % 112, k / 112⟩
/-- x and y lie from 0 to 111 (R9). -/
def XY.inGrid (t : XY) : Bool := decide (t.x < 112) && decide (t.y < 112)
/-- F = 7 FY + FX with x = 16 FX + LC and y = 16 FY + row (R32). -/
def XY.field (t : XY) : Nat := 7 * (t.y / 16) + t.x / 16
def XY.row (t : XY) : Nat := t.y % 16
def XY.lc (t : XY) : Nat := t.x % 16

def SiteId.key (a : SiteId) : Nat := 272 * a.field + 17 * a.row + a.pc
def SiteId.ofKey (k : Nat) : SiteId := ⟨k / 272, k % 272 / 17, k % 17⟩
def SiteId.valid (a : SiteId) : Bool := decide (a.field < 49) && decide (a.row < 16) && decide (a.pc < 17)
/-- Block of a site: four block rows by four block columns, the last of five PCs (R14). -/
def SiteId.block (a : SiteId) : Nat := 16 * a.field + 4 * (a.row / 4) + min (a.pc / 4) 3

end Sys2Proof

namespace Sys2Proof.Machine

def getRow (s : State) (f r : Nat) : Row := mget {} s.rows (16 * f + r)
def setRow (s : State) (f r : Nat) (v : Row) : State := { s with rows := mset {} s.rows (16 * f + r) v }
def getField (s : State) (f : Nat) : Field := mget {} s.fields f
def setField (s : State) (f : Nat) (v : Field) : State := { s with fields := mset {} s.fields f v }
def modField (s : State) (f : Nat) (g : Field → Field) : State := setField s f (g (getField s f))
def getBlock (s : State) (b : Nat) : Block := mget {} s.blocks b
def setBlock (s : State) (b : Nat) (v : Block) : State := { s with blocks := mset {} s.blocks b v }
def getSite (s : State) (a : SiteId) : Site := mget {} s.sites a.key
def setSite (s : State) (a : SiteId) (v : Site) : State := { s with sites := mset {} s.sites a.key v }
def getTile (s : State) (t : XY) : Tile := mget {} s.tiles t.key
def setTile (s : State) (t : XY) (v : Tile) : State := { s with tiles := mset {} s.tiles t.key v }
def modTile (s : State) (t : XY) (g : Tile → Tile) : State := setTile s t (g (getTile s t))
def getPart (s : State) (p : Nat) : Part := mget {} s.parts p
def setPart (s : State) (p : Nat) (v : Part) : State := { s with parts := mset {} s.parts p v }
def modPart (s : State) (p : Nat) (g : Part → Part) : State := setPart s p (g (getPart s p))

/-- The site that holds logical column i when PC e is excluded (R27). -/
def sitePc (e i : Nat) : Nat := if i < e then i else i + 1

/-- The site of a logical tile. -/
def siteOf (s : State) (t : XY) : SiteId :=
  ⟨t.field, t.row, sitePc (getRow s t.field t.row).e t.lc⟩

/-- The logical tile that a site holds, none for an excluded site. -/
def tileAt (s : State) (a : SiteId) : Option XY :=
  let e := (getRow s a.field a.row).e
  if a.pc = e then none
  else some ⟨16 * (a.field % 7) + (if a.pc < e then a.pc else a.pc - 1), 16 * (a.field / 7) + a.row⟩

/-- A field whose power is on is alive (R33, Table 15.8); without the rails none is (R379). -/
def fieldAlive (s : State) (f : Nat) : Bool := decide ((getField s f).power = .on) && s.power.on

/-- The device has its rails and a clock: a reference, or the PLLs' holdover (R4, R361). TCLK, the complexes, the seams and the Ethernet
ports run on it. -/
def tclkRuns (s : State) : Bool := s.power.on && (s.clk.active.isSome || s.clk.holdover)

/-- Rows of dead fields and broken rows are holes (R33, R34). -/
def isHole (s : State) (t : XY) : Bool :=
  !(fieldAlive s t.field) || decide ((getRow s t.field t.row).kind = .broken)

/-- A logical tile that exists. -/
def tileLive (s : State) (t : XY) : Bool := t.inGrid && !(isHole s t)

/-- The field's copy of the GTC, ns (R373). -/
def gtcOf (s : State) (f : Nat) : Nat := (Int.ofNat s.clk.gtc + (getField s f).gtcOff).toNat

/-- The copy that gives a timestamp (R373): that of the field it is taken in, and for what is taken in no field that of the
boot master, which holds the dictionary (log entry 115); F24's while there is none. -/
def gtcAt (s : State) (f : Nat) : Nat := gtcOf s (if f < 49 then f else s.boot.master.getD 24)
/-- The boot master's copy. -/
def gtcMaster (s : State) : Nat := gtcAt s 49

/-- Fields of a partition's rectangle. -/
def Part.covers (p : Part) (f : Nat) : Bool :=
  decide (p.st ≠ .free) && decide (p.fx ≤ f % 7) && decide (f % 7 < p.fx + p.w) && decide (p.fy ≤ f / 7)
    && decide (f / 7 < p.fy + p.h)

def findPart (f : Nat) : SMap Part → Option Nat
  | [] => none
  | (k, p) :: r => if p.covers f then some k else findPart f r

/-- The partition that a field belongs to. -/
def partOfField (s : State) (f : Nat) : Option Nat := findPart f s.parts
def partOf (s : State) (t : XY) : Option Nat := partOfField s t.field

def Part.fields (p : Part) : List Nat := (List.range 49).filter p.covers

/-- The 256 tile addresses of a field, in (y, x) order. -/
def fieldTiles (f : Nat) : List XY :=
  (List.range 256).map (fun i => ⟨16 * (f % 7) + i % 16, 16 * (f / 7) + i / 16⟩)

/-- The logical tiles of a partition that are not in a hole. -/
def partTiles (s : State) (p : Part) : List XY :=
  (p.fields.flatMap fieldTiles).filter (fun t => !(isHole s t))

def allTiles : List XY := (List.range 12544).map XY.ofKey

/-- The CCLK of a site runs: the field's PLL-C is locked to a reference (R4, R357), its CCLK is stopped neither for temperature
nor for its field (R58, R367, R392), and the boot has not ended in FAILED, where tiles stay stopped (R401, R461). -/
def siteClock (s : State) (a : SiteId) : Bool :=
  !(getBlock s a.block).stopped && (getField s a.field).pllC && !(getField s a.field).stopped && !s.clk.lost
    && decide (s.boot.st ≠ .failed)

/-- The CCLK of a tile's site runs. -/
def clockOn (s : State) (t : XY) : Bool := siteClock s (siteOf s t)

/-- The tile can be reached on the field's FCLK, of which PLL-F is locked to a reference or holds over (R4, R58, R361): its control
block takes writes also while its CCLK is stopped. -/
def tileReached (s : State) (t : XY) : Bool := tileLive s t && (getField s t.field).pllF

/-- The clock of a zeroise: the tile's CCLK, which an unlock holds for everything but its zeroises (Table 16.9). -/
def zeroClock (s : State) (t : XY) : Bool :=
  tileLive s t && !(getBlock s (siteOf s t).block).stopped && (getField s t.field).pllC && !s.clk.lost
    && (s.sec.unlocking.isSome || !(getField s t.field).stopped)

/-! ### Seams (Table 1.4, R15 to R22). Crossing c = 16 (6 FY + FX) + row for the east-west seam east of field (FX, FY), and
672 + 17 (7 FY + FX) + PC for the north-south seam south of it. Bundles are numbered 92 c + 46 d + k, d being the
direction (1 west or north) and k from 0 to 9 of the stream link, 10 to 27 of REQ, 28 to 45 of RSP (log entry 17). -/

/-- The crossing between two neighbouring tiles; none within one field. -/
def crossing (s : State) (a b : XY) : Option Nat :=
  let w : XY := ⟨min a.x b.x, min a.y b.y⟩
  if a.field = b.field then none
  else if a.y = b.y then some (16 * (6 * (w.y / 16) + w.x / 16) + w.row)
  else some (672 + 17 * (7 * (w.y / 16) + w.x / 16) + (siteOf s w).pc)

/-- The logical link of a bundle: 0 stream, 1 REQ, 2 RSP. -/
def bundleNet (b : Nat) : Nat := if b % 46 < 10 then 0 else if b % 46 < 28 then 1 else 2

/-- A bundle with more bad lanes than Hem lanes (R18). -/
def Bundle.dead (v : Bundle) : Bool := decide (3 ≤ v.bad)

/-- A link between two neighbours is dead, in both directions (R18): 0 the stream link, 1 REQ, 2 RSP. -/
def netDead (s : State) (net : Nat) (a b : XY) : Bool :=
  match crossing s a b with
  | none => false
  | some c => s.bundles.any (fun e => e.2.dead && decide (e.1 / 92 = c) && decide (bundleNet e.1 = net))

/-- The mesh link is dead on a network. -/
def linkDead (s : State) (rsp : Bool) (a b : XY) : Bool := netDead s (if rsp then 2 else 1) a b

/-- One more lane of a bundle is judged bad (R18): a data lane takes the first unused Hem lane, H0 before H1; a Hem lane that
is bad carries nothing, and what it carried goes to the other. A disagreement at a data lane that H0 carries already gives it H1 too
and counts once more, H0 being recorded as it was: R18 and R20 do not say how the map records it (DESIGN CHOICE, log entry 148). -/
def Bundle.loseLane (v : Bundle) (l : Nat) : Bundle :=
  let hem (v : Bundle) (l : Nat) : Bundle :=
    if v.h0 = .unused then { v with h0 := .carries l } else if v.h1 = .unused then { v with h1 := .carries l } else v
  let moved (h : Hem) (v : Bundle) : Bundle := match h with
    | .carries m => hem v m
    | _ => v
  let v := { v with bad := v.bad + 1 }
  if l = 32 then moved v.h0 { v with h0 := .bad }
  else if l = 33 then moved v.h1 { v with h1 := .bad }
  else hem v l

/-- The data lanes that Hem lanes carry. -/
def Bundle.substituted (v : Bundle) : List Nat :=
  [v.h0, v.h1].filterMap (fun h => match h with
    | .carries l => some l
    | _ => none)

/-- A bundle as training finds it, with the lanes that it judges bad, Hem lanes first (R17, R18). Two bad lanes take both Hem lanes,
and the bundle is marked exhausted (R22). -/
def Bundle.trained (lanes : List Nat) : Bundle :=
  let l := lanes.filter (fun n => decide (n < 34))
  let v := ((l.filter (fun n => decide (32 ≤ n))) ++ l.filter (fun n => decide (n < 32))).foldl Bundle.loseLane {}
  { v with exhausted := decide (2 ≤ v.bad) }

/-- The lanes that a bundle is known to have lost: what its Hem lanes carry, and Hem lanes that are bad themselves (H0 is lane 32, H1
lane 33). -/
def Bundle.known (v : Bundle) : List Nat :=
  v.substituted ++ (if v.h0 = .bad then [32] else []) ++ (if v.h1 = .bad then [33] else [])

/-- The two fields of a bundle's crossing. -/
def bundleFields (b : Nat) : Nat × Nat :=
  let c := b / 92
  if c < 672 then
    let q := c / 16
    (7 * (q / 6) + q % 6, 7 * (q / 6) + q % 6 + 1)
  else
    let q := (c - 672) / 17
    (q, q + 7)

/-- Nominal voltage of an operating point, mV (Table 14.3). -/
def nominalMv (pt : Nat) : Nat := [780, 720, 690, 660].getD pt 600

/-- The field rail now: the nominal voltage of its point and its trim (R371). -/
def railMv (s : State) (f : Nat) : Nat :=
  let D := getField s f
  nominalMv D.op + (mget 0 D.trim D.op).toNat

/-- The operating point, issue cap and reset of the partition hold its tiles (Table 18.5 step 1). -/
def partHeld (s : State) (t : XY) : Bool :=
  match partOf s t with
  | none => false
  | some p => (getPart s p).resetting.isSome

/-- CCLK of a field is stopped for its partition's operating-point change (R367). -/
def heldByChange (s : State) (f : Nat) : Bool :=
  match partOfField s f with
  | none => false
  | some p => match (getPart s p).change with
    | some (.stopped _) => true
    | _ => false

/-- An operating-point change of the field's partition has been decided and CCLK has not restarted (R367, R386). -/
def changing (s : State) (f : Nat) : Bool :=
  match partOfField s f with
  | none => false
  | some p => (getPart s p).change.isSome

/-- Phase-table entry n: operating point and issue cap (R388); 0x1000 where nothing has been written. -/
def Part.phasePoint (p : Part) (n : Nat) : Nat := (mget 0x1000 p.cfg.phases n).toNat % 256
def Part.phaseCap (p : Part) (n : Nat) : Nat := (mget 0x1000 p.cfg.phases n).toNat / 256

/-- The smallest of a field's phase, power, emergency and thermal values as they have been decided (Table 15.5). -/
def fieldCap (s : State) (f : Nat) : Nat :=
  let h := (getField s f).thermal
  let e := if s.power.emergency then 8 else 16
  let g := match partOfField s f with
    | none => 16
    | some p => min (getPart s p).powerK ((getPart s p).phaseCap (getPart s p).phase.toNat)
  min h (min e g)

/-- The field takes the values decided: in its first cycle with c = 0, and where CCLK restarts (R386). -/
def takeCap (s : State) (f : Nat) : State :=
  let k := fieldCap s f
  modField s f (fun D => { D with cap := k })

/-- The effective issue cap of a tile's block: the smallest of the values in force in its field and of its droop value, which
acts in any cycle (R385 to R387). -/
def issueCap (s : State) (t : XY) : Nat := min (getBlock s (siteOf s t).block).droop (getField s t.field).cap

/-- An operation on each element of a list in turn. -/
def forAll {α : Type} (f : State → α → State) : List α → State → State
  | [], s => s
  | a :: r, s => forAll f r (f s a)

end Sys2Proof.Machine
end

