-- ==== Sys2Proof/Machine/Events.lean ====
section
/-!
DEFINITION. Raising an event (R444 to R448): the latched class, ALERT_N, the event log with its rate limits, the CPER
source and MSI-X vector 3; the device-wide counters of the dictionary; free values.
-/
namespace Sys2Proof.Machine

/-- Operating hours (0x1000:08): what the device had at power-up and the hours of idle ticks since (log entry 86). -/
def hoursNow (s : State) : Word32 := Config.hoursAtPowerUp + s.power.hours

/-- A fresh free value (log entry 3). -/
def freeVal (s : State) : Nat × State := (Config.freeNat s.free, { s with free := s.free + 1 })

/-- The key of a dictionary entry. -/
def entryKey (ix sub : Nat) : Nat := 256 * ix + sub

/-- A device-wide counter of the dictionary. -/
def total (s : State) (ix sub : Nat) : Nat := mget 0 s.totals (entryKey ix sub)
def addTotal (s : State) (ix sub n : Nat) : State :=
  { s with totals := mset 0 s.totals (entryKey ix sub) (total s ix sub + n) }
def setTotal (s : State) (ix sub n : Nat) : State := { s with totals := mset 0 s.totals (entryKey ix sub) n }

/-- The value in force of a saved or volatile RW entry that has no field of its own: none at its default. -/
def liveEntry (s : State) (ix sub : Nat) : Option (List Byte) := mfind s.saved.live (entryKey ix sub)
def liveNat (s : State) (ix sub dflt : Nat) : Nat :=
  match liveEntry s ix sub with
  | none => dflt
  | some l => leNat l

def portOf (s : State) : HPort → Port_
  | .a => s.portA
  | .b => s.portB
def setPort (s : State) (p : HPort) (v : Port_) : State :=
  match p with
  | .a => { s with portA := v }
  | .b => { s with portB := v }
def modPort (s : State) (p : HPort) (g : Port_ → Port_) : State := setPort s p (g (portOf s p))

def emit (s : State) (o : Output) : State := { s with out := s.out ++ [o] }

/-- A function's MSI-X vector is raised: its message leaves, or, where the vector is masked, its pending bit is set (R306,
R308, log entry 106). -/
def fireVector (s : State) (f : Fn) (v : Nat) : State :=
  if (mget {} (mget {} (portOf s f.port).fns f.fn).msix v).masked then
    modPort s f.port (fun P =>
      let F := mget {} P.fns f.fn
      { P with fns := mset {} P.fns f.fn { F with pba := mset false F.pba v true } })
  else emit s (.msix f v)

/-- Raise one MSI-X vector of the PF and of every enabled VF of a port (R329, R446). -/
def vectorAll (s : State) (p : HPort) (v : Nat) : State :=
  if (portOf s p).linkUp then
    forAll (fun s n => fireVector s ⟨p, n⟩ v) (List.range ((portOf s p).vfs + 1)) s
  else s

def vectorOne (s : State) (f : Fn) (v : Nat) : State := if (portOf s f.port).linkUp then fireVector s f v else s

/-- An event's parameters before its time and number: everything absent. -/
def blankEvent (cls sev mech act : Nat) : Event :=
  { time := 0, seq := 0, cls := cls, severity := sev, mechanism := mech, action := act, field := 0xFF, row := 0xFF,
    pc := 0xFF, part := 0xFF, x := 0xFF, y := 0xFF, ctx := 0xFFFF, ochre := 0, op := 0, temp := 0, age := 0, addr := 0, volts := 0
    lane := none }

/-- Its place as a field: partition, context and operating point follow. -/
def Event.atField (s : State) (f : Nat) (e : Event) : Event :=
  let e := { e with field := f, op := (getField s f).op, temp := (getField s f).hottest, volts := if fieldAlive s f then railMv s f else 0 }
  match partOfField s f with
  | none => e
  | some p => { e with part := p, ctx := ((getPart s p).ctx).getD 0xFFFF }

def Event.atPart (s : State) (p : Nat) (e : Event) : Event :=
  { e with part := p, ctx := ((getPart s p).ctx).getD 0xFFFF, op := (getPart s p).op }

def Event.atSite (s : State) (a : SiteId) (e : Event) : Event :=
  { (e.atField s a.field) with row := a.row, pc := a.pc, temp := (getSite s a).temp }

def Event.atTile (s : State) (t : XY) (e : Event) : Event :=
  { (e.atSite s (siteOf s t)) with x := t.x, y := t.y }

/-- The interval in ns within which a class logs only one record per place (Table 18.2), 0 for no limit. -/
def rateLimit (cls : Nat) : Nat :=
  if cls = clSramCe || cls = clDramCe then 3600000000000
  else if cls = clDroop then 1000000000
  else 0

/-- Whether a record of this class at this place is suppressed now (R446, Table 18.2). OVERFLOW logs once for each
tile and LAUNCH: its mark is removed at the LAUNCH. -/
def suppressed (s : State) (cls place : Nat) : Bool :=
  match mfind s.events.lastLogged (4294967296 * cls + place) with
  | none => false
  | some t => decide (cls = clOverflow) || decide (s.clk.gtc < t + rateLimit cls)

def limitedClass (cls : Nat) : Bool := decide (rateLimit cls ≠ 0) || decide (cls = clOverflow)

/-- Write the log record of an event: its SEQ, the overwriting of the record 4,096 older (R448), the newest record for
CPER (R449), vector 3 (R446). -/
def logEvent (s : State) (e : Event) (place : Nat) : State :=
  let v := s.events
  let e := { e with time := gtcAt s e.field, seq := v.seq, age := hoursNow s }
  let v := { v with
    log := mput v.log (v.seq % 4096) e
    seq := v.seq + 1
    overwritten := if 4096 ≤ v.seq then v.overwritten + 1 else v.overwritten
    lastLogged := if limitedClass e.cls then mput v.lastLogged (4294967296 * e.cls + place) s.clk.gtc else v.lastLogged
    cper := if e.severity = sevInfo then v.cper else some e }
  let s := { s with events := v }
  let s := if v.maskA.getLsbD e.cls then vectorAll s .a 3 else s
  if v.maskB.getLsbD e.cls then vectorAll s .b 3 else s

/-- Raise an event (R444): latch its class, assert ALERT_N when the alert mask 0x5804 names it, and log it. -/
def raise (s : State) (e : Event) (place : Nat) : State :=
  let m := liveNat s 0x5804 0 0x7FFFFFE
  let s := { s with events := { s.events with latched := s.events.latched ||| (1#64 <<< e.cls) } }
  let s := if m.testBit e.cls then { s with pins := { s.pins with alertN := false } } else s
  if limitedClass e.cls && suppressed s e.cls place then
    { s with events := { s.events with suppressed := s.events.suppressed + 1 } }
  else logEvent s e place

/-- The last record's SEQ, which names an event as a reset's cause (Table 18.10). -/
def lastSeq (s : State) : Nat := s.events.seq - 1

/-- SYNDROME: of a seam lane's event the lane number, in its lowest byte; of every other class, whose contents the spec names without
their places, free bytes of the implementation (log entry 141). -/
def Event.syndrome (e : Event) : List Byte :=
  match e.lane with
  | some n => natBytes 16 n
  | none => (List.range 16).map (fun i => Config.entryByte (entryKey 0x5801 1) (16 * e.seq + i))

/-- A record of the event log in its 64 bytes (Table 18.3). -/
def Event.bytes (e : Event) : List Byte :=
  natBytes 8 e.time ++ natBytes 8 e.seq ++
  [BitVec.ofNat 8 e.cls, BitVec.ofNat 8 e.severity, BitVec.ofNat 8 e.mechanism, BitVec.ofNat 8 e.action,
   BitVec.ofNat 8 e.field, BitVec.ofNat 8 e.row, BitVec.ofNat 8 e.pc, BitVec.ofNat 8 e.part, BitVec.ofNat 8 e.x,
   BitVec.ofNat 8 e.y] ++ natBytes 2 e.ctx ++
  [BitVec.ofNat 8 e.ochre, BitVec.ofNat 8 e.op, BitVec.ofNat 8 e.temp, 0] ++
  natBytes 2 e.volts ++
  natBytes 4 e.age.toNat ++ [0, 0] ++
  e.syndrome ++ natBytes 8 e.addr

end Sys2Proof.Machine
end

