-- ==== Sys2Proof/Machine/Num.lean ====
section
/-!
DEFINITION. Number formats (04_number_formats.md): exact values, the encodings of every format, the roundings, the
quantisation of R125, XA32 and its add (R119, R138), and the carried update (R158). Every computation is exact on
natural numbers and rounds once at its end.
-/
namespace Sys2Proof.Machine

/-! ### Exact values -/

/-- A finite value (-1)^neg * m * 2^e; with m = 0 a zero that keeps its sign. -/
structure Dy where
  neg : Bool
  m : Nat
  e : Int
deriving DecidableEq, Repr, Inhabited

/-- What a code of a floating-point format stands for. -/
inductive Val where
  | fin (d : Dy)
  | inf (neg : Bool)
  | nan
deriving DecidableEq, Repr, Inhabited

def Dy.zero (neg : Bool) : Dy := ⟨neg, 0, 0⟩
def Dy.one : Dy := ⟨false, 1, 0⟩

/-- Numerator and denominator of the magnitude. -/
def Dy.num (d : Dy) : Nat := d.m <<< d.e.toNat
def Dy.den (d : Dy) : Nat := 1 <<< (-d.e).toNat

def Dy.mul (a b : Dy) : Dy := ⟨a.neg != b.neg, a.m * b.m, a.e + b.e⟩

/-- The signed mantissa at a lower exponent. -/
def Dy.intAt (d : Dy) (e : Int) : Int :=
  let v : Int := Int.ofNat (d.m <<< (d.e - e).toNat)
  if d.neg then -v else v

/-- Exact sum. A zero sum is -0 only when both terms are negative (then both are -0), as IEEE 754 and R137, R138 say. -/
def Dy.add (a b : Dy) : Dy :=
  let e := min a.e b.e
  let v := a.intAt e + b.intAt e
  if v = 0 then Dy.zero (a.neg && b.neg) else ⟨decide (v < 0), v.natAbs, e⟩

def Dy.flip (d : Dy) : Dy := { d with neg := !d.neg }
def Dy.abs (d : Dy) : Dy := { d with neg := false }

/-- a < b as numbers. -/
def Dy.lt (a b : Dy) : Bool :=
  let e := min a.e b.e
  decide (a.intAt e < b.intAt e)

/-- Exact sum of a list; the empty sum is -0, which is the identity of Dy.add. -/
def Dy.sum : List Dy → Dy
  | [] => Dy.zero true
  | d :: r => Dy.add d (Dy.sum r)

/-- 2^k. -/
def Dy.pow2 (k : Int) : Dy := ⟨false, 1, k⟩

def Val.mul : Val → Val → Val
  | .nan, _ => .nan
  | _, .nan => .nan
  | .inf a, .inf b => .inf (a != b)
  | .inf a, .fin d => if d.m = 0 then .nan else .inf (a != d.neg)
  | .fin d, .inf b => if d.m = 0 then .nan else .inf (d.neg != b)
  | .fin a, .fin b => .fin (a.mul b)

def Val.add : Val → Val → Val
  | .nan, _ => .nan
  | _, .nan => .nan
  | .inf a, .inf b => if a = b then .inf a else .nan
  | .inf a, .fin _ => .inf a
  | .fin _, .inf b => .inf b
  | .fin a, .fin b => .fin (a.add b)

def Val.neg : Val → Val
  | .nan => .nan
  | .inf a => .inf (!a)
  | .fin d => .fin d.flip

def Val.abs : Val → Val
  | .nan => .nan
  | .inf _ => .inf false
  | .fin d => .fin d.abs

/-- a < b; false when either is NaN. -/
def Val.lt : Val → Val → Bool
  | .nan, _ => false
  | _, .nan => false
  | .inf a, .inf b => a && !b
  | .inf a, .fin _ => a
  | .fin _, .inf b => !b
  | .fin a, .fin b => a.lt b

/-- a < b with -0 below +0 (R89: the order of VMAX and VMIN). -/
def Val.before (a b : Val) : Bool :=
  a.lt b || (match a, b with
    | .fin x, .fin y => decide (x.m = 0) && decide (y.m = 0) && x.neg && !y.neg
    | _, _ => false)

/-! ### Rounding -/

/-- How a value between two neighbours is rounded: R122, R123 with its draw, R158 (tie to the larger magnitude or to
the smaller), up or down in magnitude. -/
inductive Rnd where
  | even
  | stoch (r : Nat)
  | tieUp
  | tieDown
  | up
  | down
deriving DecidableEq, Repr, Inhabited

/-- n/d rounded to a whole number. -/
def roundUnit (r : Rnd) (n d : Nat) : Nat :=
  let q := n / d
  let m := n % d
  match r with
  | .even => if 2 * m < d then q else if d < 2 * m then q + 1 else q + q % 2
  | .stoch k => if k < 65536 * m / d then q + 1 else q
  | .tieUp => if 2 * m < d then q else q + 1
  | .tieDown => if d < 2 * m then q + 1 else q
  | .up => if m = 0 then q else q + 1
  | .down => q

/-- floor(log2(n/d)) for positive n and d. -/
def ilog (n d : Nat) : Int :=
  let k : Int := Int.ofNat n.log2 - Int.ofNat d.log2
  if d <<< k.toNat ≤ n <<< (-k).toNat then k else k - 1

/-- n/d rounded into a binary format of mb mantissa bits whose least exponent is emin, with no upper bound: the code
without sign (exponent and mantissa fields together, subnormals included). -/
def roundMag (mb : Nat) (emin : Int) (r : Rnd) (n d : Nat) : Nat :=
  if n = 0 then 0
  else
    let ex := max (ilog n d) emin
    let k : Int := ex - Int.ofNat mb
    (ex - emin).toNat * 2 ^ mb + roundUnit r (n <<< (-k).toNat) (d <<< k.toNat)

/-- The value of a code without sign of a binary format with mb mantissa bits and a bias. -/
def decMag (mb bias code : Nat) : Dy :=
  let e := code >>> mb
  let m := code % 2 ^ mb
  if e = 0 then ⟨false, m, 1 - Int.ofNat bias - Int.ofNat mb⟩
  else ⟨false, 2 ^ mb + m, Int.ofNat e - Int.ofNat bias - Int.ofNat mb⟩

def Dy.signed (neg : Bool) (d : Dy) : Dy := { d with neg := neg }

/-! ### FP32, FP16, BF16 (R110, R111, Table 4.2) -/

inductive Wide where
  | bf16
  | fp16
  | fp32
deriving DecidableEq, Repr, Inhabited

def Wide.mb : Wide → Nat
  | .bf16 => 7
  | .fp16 => 10
  | .fp32 => 23
def Wide.eb : Wide → Nat
  | .bf16 => 8
  | .fp16 => 5
  | .fp32 => 8
def Wide.bias : Wide → Nat
  | .bf16 => 127
  | .fp16 => 15
  | .fp32 => 127
def Wide.width (w : Wide) : Nat := w.mb + w.eb + 1
/-- Code of infinity, and the canonical NaN. -/
def Wide.infCode (w : Wide) : Nat := (2 ^ w.eb - 1) * 2 ^ w.mb
def Wide.nanCode (w : Wide) : Nat := w.infCode + 2 ^ (w.mb - 1)

def Wide.dec (w : Wide) (c : Nat) : Val :=
  let neg := c.testBit (w.mb + w.eb)
  let mag := c % 2 ^ (w.mb + w.eb)
  if mag = w.infCode then .inf neg
  else if w.infCode < mag then .nan
  else .fin ((decMag w.mb w.bias mag).signed neg)

def Wide.sign (w : Wide) (neg : Bool) (mag : Nat) : Nat := mag + b2n neg * 2 ^ (w.mb + w.eb)

/-- Encode a value; `sat` chooses Table 4.9's saturation, otherwise overflow gives infinity (R126). -/
def Wide.enc (w : Wide) (r : Rnd) (sat : Bool) : Val → Nat
  | .nan => w.nanCode
  | .inf n => w.sign n w.infCode
  | .fin d =>
    let top := decMag w.mb w.bias (w.infCode - 1)
    let mag :=
      if sat && !(d.abs.lt top) then w.infCode - 1
      else roundMag w.mb (1 - Int.ofNat w.bias) r d.num d.den
    w.sign d.neg (if w.infCode ≤ mag then (if sat then w.infCode - 1 else w.infCode) else mag)

/-! ### Elements and scales (Tables 4.3 to 4.6, R112 to R116) -/

inductive Elem where
  | e2m1
  | e2m3
  | e3m2
  | e4m3
  | e5m2
  | mxint8
  | int4
  | tern
deriving DecidableEq, Repr, Inhabited

def Elem.width : Elem → Nat
  | .e2m1 => 4
  | .e2m3 => 6
  | .e3m2 => 6
  | .e4m3 => 8
  | .e5m2 => 8
  | .mxint8 => 8
  | .int4 => 4
  | .tern => 2

/-- Mantissa bits and bias of the floating-point elements. -/
def Elem.shape : Elem → Option (Nat × Nat)
  | .e2m1 => some (1, 1)
  | .e2m3 => some (3, 1)
  | .e3m2 => some (2, 3)
  | .e4m3 => some (3, 7)
  | .e5m2 => some (2, 15)
  | _ => none

/-- emax (Table 4.5). -/
def Elem.emax : Elem → Dy
  | .e2m1 => ⟨false, 6, 0⟩
  | .e2m3 => ⟨false, 15, -1⟩
  | .e3m2 => ⟨false, 28, 0⟩
  | .e4m3 => ⟨false, 448, 0⟩
  | .e5m2 => ⟨false, 57344, 0⟩
  | .mxint8 => ⟨false, 127, -6⟩
  | .int4 => ⟨false, 7, 0⟩
  | .tern => ⟨false, 1, 0⟩

/-- The code of emax without its sign. -/
def Elem.emaxCode : Elem → Nat
  | .e2m1 => 7
  | .e2m3 => 0x1F
  | .e3m2 => 0x1F
  | .e4m3 => 0x7E
  | .e5m2 => 0x7B
  | .mxint8 => 127
  | .int4 => 7
  | .tern => 1

/-- A two's complement code as an integer value times 2^k; a zero is +0. -/
def decInt (w c : Nat) (k : Int) : Dy :=
  if c.testBit (w - 1) then ⟨true, 2 ^ w - c, k⟩ else ⟨false, c, k⟩

def Elem.dec (t : Elem) (c : Nat) : Val :=
  match t with
  | .mxint8 => .fin (decInt 8 c (-6))
  | .int4 => .fin (decInt 4 c 0)
  | .tern => .fin (if c = 1 then ⟨false, 1, 0⟩ else if c = 3 then ⟨true, 1, 0⟩ else Dy.zero false)
  | _ =>
    match t.shape with
    | none => .nan
    | some (mb, bias) =>
      let neg := c.testBit (t.width - 1)
      let mag := c % 2 ^ (t.width - 1)
      if t = .e4m3 && mag = 0x7F then .nan
      else if t = .e5m2 && mag = 0x7C then .inf neg
      else if t = .e5m2 && 0x7C < mag then .nan
      else .fin ((decMag mb bias mag).signed neg)

/-- The element code of a magnitude n/d with a sign: one rounding, then the clamp at emax (R125). -/
def Elem.enc (t : Elem) (r : Rnd) (neg : Bool) (n d : Nat) : Nat :=
  let top := t.emax
  let mag :=
    if top.num * d ≤ n * top.den then t.emaxCode
    else match t.shape with
      | some (mb, bias) => min t.emaxCode (roundMag mb (1 - Int.ofNat bias) r n d)
      | none => match t with
        | .mxint8 => min t.emaxCode (roundUnit r (64 * n) d)
        | _ => min t.emaxCode (roundUnit r n d)
  match t.shape with
  | some _ => mag + b2n neg * 2 ^ (t.width - 1)
  | none => if neg then (2 ^ t.width - mag) % 2 ^ t.width else mag

/-- A UE5M3 code as a value; none for the invalid-block marker (R115). -/
def ue5m3 (c : Nat) : Option Dy := if c = 0xFF then none else some (decMag 3 15 c)
/-- An E8M0 code as a value; none for NaN (R116). -/
def e8m0 (c : Nat) : Option Dy := if c = 0xFF then none else some (Dy.pow2 (Int.ofNat c - 127))

/-! ### Storage formats (Tables 3.10 and 4.1) -/

inductive Fmt where
  | wide (w : Wide)
  | mx (t : Elem)
  | xf (t : Elem) (len : Nat)
  | xa32
deriving DecidableEq, Repr, Inhabited

/-- Table 3.10; codes 0x0E to 0x1F are reserved (R88). -/
def fmtOf (c : FmtCode) : Option Fmt :=
  match c.toNat with
  | 0x00 => some (.wide .fp32)
  | 0x01 => some (.wide .fp16)
  | 0x02 => some (.wide .bf16)
  | 0x03 => some (.mx .e4m3)
  | 0x04 => some (.mx .e5m2)
  | 0x05 => some (.mx .e3m2)
  | 0x06 => some (.mx .e2m3)
  | 0x07 => some (.mx .e2m1)
  | 0x08 => some (.mx .mxint8)
  | 0x09 => some (.xf .e2m1 8)
  | 0x0A => some (.xf .int4 8)
  | 0x0B => some (.xf .e4m3 16)
  | 0x0C => some (.xf .tern 32)
  | 0x0D => some .xa32
  | _ => none

def Fmt.width : Fmt → Nat
  | .wide w => w.width
  | .mx t => t.width
  | .xf t _ => t.width
  | .xa32 => 32

def Fmt.block : Fmt → Nat
  | .wide _ => 1
  | .mx _ => 32
  | .xf _ n => n
  | .xa32 => 1

def Fmt.blocked : Fmt → Bool
  | .mx _ => true
  | .xf _ _ => true
  | _ => false

def Fmt.isX : Fmt → Bool
  | .xf _ _ => true
  | _ => false

/-- A valid tile scale: a positive, finite, nonzero FP32 value (R117). -/
def tileScale (w : Word32) : Option Dy :=
  match Wide.fp32.dec w.toNat with
  | .fin d => if d.m ≠ 0 && !d.neg then some d else none
  | _ => none

/-- The factor that a block's scale code and the tile scale give its elements; none for an invalid block
(R117, R118). -/
def Fmt.factor (f : Fmt) (code : Nat) (tile : Word32) : Option Dy :=
  match f with
  | .wide _ => some Dy.one
  | .xa32 => some Dy.one
  | .mx _ => e8m0 code
  | .xf _ _ =>
    match ue5m3 code, tileScale tile with
    | some s, some t => some (s.mul t)
    | _, _ => none

/-- The value of an element code of a format, without its scales. -/
def Fmt.elem (f : Fmt) (c : Nat) : Val :=
  match f with
  | .wide w => w.dec c
  | .mx t => t.dec c
  | .xf t _ => t.dec c
  | .xa32 => .nan

/-- An element with its block and tile scale (R117, R118). -/
def Fmt.dec (f : Fmt) (code : Nat) (tile : Word32) (c : Nat) : Val :=
  match f.factor code tile with
  | none => .nan
  | some k => match f.elem c with
    | .fin d => .fin (d.mul k)
    | .inf n => if k.m = 0 then .nan else .inf n
    | .nan => .nan

/-! ### Quantisation (R125) -/

/-- The larger magnitude of a list of finite values. -/
def maxMag : List Val → Dy
  | [] => Dy.zero false
  | .fin d :: r => let m := maxMag r; if m.lt d.abs then d.abs else m
  | _ :: r => maxMag r

def allFinite : List Val → Bool
  | [] => true
  | .fin _ :: r => allFinite r
  | _ :: _ => false

/-- The code of the smallest finite scale value s with emax * s ≥ m, where m = n/d > 0; the largest where none
qualifies. -/
def scaleUe5m3 (emax : Dy) (n d : Nat) : Nat := min 0xFE (roundMag 3 (-14) .up (n * emax.den) (d * emax.num))

def scaleE8m0 (emax : Dy) (n d : Nat) : Nat :=
  let a := n * emax.den
  let b := d * emax.num
  let l := ilog a b
  let c := if b <<< l.toNat = a <<< (-l).toNat then l else l + 1
  min 0xFE (c + 127).toNat

/-- Draws: element k of a block that rounds stochastically uses draw k. -/
def rndAt (stoch : Bool) (draws : List Nat) (k : Nat) : Rnd := if stoch then .stoch (draws.getD k 0) else .even

/-- The element codes of a block under a factor n/d with which each magnitude is multiplied. -/
def quantElems (t : Elem) (stoch : Bool) (draws : List Nat) (k : Dy) : Nat → List Val → List Nat
  | _, [] => []
  | i, .fin v :: r =>
    (if k.m = 0 then t.enc .even v.neg 0 1
     else t.enc (rndAt stoch draws i) v.neg (v.num * k.den) (v.den * k.num)) :: quantElems t stoch draws k (i + 1) r
  | i, _ :: r => 0 :: quantElems t stoch draws k (i + 1) r

/-- Quantise one block: its scale code and element codes (R125). -/
def quantBlock (f : Fmt) (tile : Word32) (stoch : Bool) (draws : List Nat) (v : List Val) : Nat × List Nat :=
  let bad := (0xFF, v.map (fun _ => 0))
  if !(allFinite v) then bad
  else match f with
    | .mx t =>
      let m := maxMag v
      let code := if m.m = 0 then 0 else scaleE8m0 t.emax m.num m.den
      (code, quantElems t stoch draws (Dy.pow2 (Int.ofNat code - 127)) 0 v)
    | .xf t _ =>
      match tileScale tile with
      | none => bad
      | some ts =>
        let m := maxMag v
        let code := if m.m = 0 then 0 else scaleUe5m3 t.emax (m.num * ts.den) (m.den * ts.num)
        (code, quantElems t stoch draws ((decMag 3 15 code).mul ts) 0 v)
    | _ => bad

/-- Codes of w bits packed from bit 0 up. -/
def packCodes (w : Nat) : List Nat → Nat
  | [] => 0
  | c :: r => c + 2 ^ w * packCodes w r

/-- n codes of w bits taken from bit 0 up. -/
def unpackCodes (w : Nat) : Nat → Nat → List Nat
  | 0, _ => []
  | n + 1, v => v % 2 ^ w :: unpackCodes w n (v / 2 ^ w)

/-- The list in runs of n. -/
def chunksGo {α : Type} (n : Nat) : Nat → List α → List (List α)
  | 0, _ => []
  | k + 1, l => l.take n :: chunksGo n k (l.drop n)

def chunks {α : Type} (n : Nat) (l : List α) : List (List α) := chunksGo n (ceilDiv l.length n) l

/-! ### XA32 (R119, R138) -/

def xaNan : Nat := 0x7FE00000
def xaMax : Nat := 0x7FBFFFFF

/-- Decode; none is NaN. -/
def xaDec (c : Nat) : Option Dy :=
  let mag := c % 2 ^ 31
  if 0x7FC00000 ≤ mag then none else some ((decMag 22 255 mag).signed (c.testBit 31))

/-- add_xa32 of R138: the new code and whether it saturated. -/
def addXa32 (x : Nat) (p : Option Dy) : Nat × Bool :=
  match xaDec x, p with
  | some a, some b =>
    let v := a.add b
    let mag := roundMag 22 (-254) .even v.num v.den
    let sgn := b2n v.neg * 2 ^ 31
    if xaMax < mag then (xaMax + sgn, true) else (mag + sgn, false)
  | _, _ => (xaNan, false)

/-! ### FP32 in three BF16 parts (R129) -/

/-- One truncation: the value with its magnitude cut to the BF16 grid. -/
def cutBf16 (d : Dy) : Dy :=
  (decMag 7 127 (roundMag 7 (-126) .down d.num d.den)).signed d.neg

/-- hi, mid and lo of a finite FP32 value; every zero part carries the sign of x. -/
def split3 (x : Dy) : Dy × Dy × Dy :=
  let hi := cutBf16 x
  let r1 := (x.add hi.flip)
  let r1 := if r1.m = 0 then Dy.zero x.neg else r1
  let mid := cutBf16 r1
  let r2 := r1.add mid.flip
  let r2 := if r2.m = 0 then Dy.zero x.neg else r2
  (hi, mid, (cutBf16 r2).signed x.neg)

/-- The term of R139. -/
def term3 (a b : Dy) : Dy :=
  let (ah, am, al) := split3 a
  let (bh, bm, bl) := split3 b
  Dy.sum [ah.mul bh, ah.mul bm, am.mul bh, ah.mul bl, al.mul bh, am.mul bm]

/-! ### The carried update (R157 to R159) -/

/-- Exponent of ulp of a BF16 code: 2^(e-134), 2^-133 for zero and subnormal. -/
def ulpExp (c : Nat) : Int :=
  let e := (c / 128) % 256
  if e = 0 then -133 else Int.ofNat e - 134

/-- x rounded to BF16, nearest, ties toward +infinity: the code without bound. -/
def roundTowardPlus (x : Dy) : Nat :=
  roundMag 7 (-126) (if x.neg then .tieDown else .tieUp) x.num x.den

/-- One lane of VUPDC: the new weight code and the new carry byte. -/
def updc (w c d : Nat) : Nat × Nat :=
  match Wide.bf16.dec w, Wide.fp32.dec d with
  | .nan, _ => (0x7FC0, 0)
  | _, .nan => (0x7FC0, 0)
  | .inf a, .inf b => if a = b then (Wide.bf16.sign a 0x7F80, 0) else (0x7FC0, 0)
  | .inf a, .fin _ => (Wide.bf16.sign a 0x7F80, 0)
  | .fin _, .inf b => (Wide.bf16.sign b 0x7F80, 0)
  | .fin wv, .fin dv =>
    let cv := decInt 8 c 0
    let x := (wv.add ⟨cv.neg, cv.m, ulpExp w - 8⟩).add dv
    if x.m = 0 then (if w = 0x8000 && c = 0 && dv.neg && dv.m = 0 then 0x8000 else 0, 0)
    else
      let mag := roundTowardPlus x
      if 0x7F80 ≤ mag then (Wide.bf16.sign x.neg 0x7F7F, 0)
      else
        let w' := Wide.bf16.sign x.neg mag
        let r := x.add ((decMag 7 127 mag).signed x.neg).flip
        let r8 : Dy := ⟨r.neg, r.m, r.e + 8 - ulpExp w'⟩
        let q := roundUnit .even r8.num r8.den
        let q := if !r8.neg && q = 128 then 127 else q
        (w', if r8.neg then (256 - q) % 256 else q)

end Sys2Proof.Machine
end

