-- ==== Sys2Proof/Machine/Operands.lean ====
section
/-!
DEFINITION. The operand forms of the tile's instructions: immediates and offsets (Tables 3.1, 3.5 to 3.8), lane types
(Table 3.9), register pairs (R80), queue addresses (Table 3.16), and the effective addresses of R84 and R85.
-/
namespace Sys2Proof

/-- The immediate, sign-extended: IMM12, or the extension X of Format L (Table 3.5). -/
def Imm.value : Imm → Word64
  | .short i => i.signExtend 64
  | .long x => x.signExtend 64

/-- The shift count of SLLI, SRLI and SRAI; none where the bits above [5:0] are not zero (Table 3.5). -/
def Imm.shift : Imm → Option Nat
  | .short i => if i.toNat < 64 then some i.toNat else none
  | .long x => if x.toNat < 64 then some x.toNat else none

/-- Words that an instruction with this immediate occupies: Format I one, Format L two (R77). -/
def Imm.words : Imm → Nat
  | .short _ => 1
  | .long _ => 2

end Sys2Proof

namespace Sys2Proof.Machine

/-- Bytes of the size code SZ (Table 3.8). -/
def sizeOf2 (z : Size2) : Nat := 2 ^ z.toNat

/-- A number's low n bytes, sign-extended to 64 bits. -/
def signExt (n v : Nat) : Word64 :=
  if v.testBit (8 * n - 1) then BitVec.ofNat 64 (v + 2 ^ 64 - 2 ^ (8 * n)) else BitVec.ofNat 64 v

/-- The scratchpad's end (R50). -/
def padTop : Nat := 0x300000

/-- A local range of n bytes lies in the scratchpad (R84, R100). -/
def inPad (a n : Nat) : Bool := decide (a + n ≤ padTop)

/-- A local address valid for a load or store of n bytes; ctl allows the control block (LD and SD, R84). -/
def localOk (ctl : Bool) (a n : Nat) : Bool :=
  decide (a % n = 0) && (inPad a n || (ctl && decide (0x3F0000 ≤ a) && decide (a + n ≤ 0x400000)))

/-- Lane width in bits of a type code (Table 3.9); 0b111 is reserved. -/
def laneBits (t : Ty) : Option Nat :=
  match t.toNat with
  | 0 => some 16
  | 1 => some 16
  | 2 => some 32
  | 3 => some 8
  | 4 => some 16
  | 5 => some 32
  | 6 => some 64
  | _ => none

/-- The floating-point lane types, which are also the codes of STY and DTY (R90). -/
def floatTy (t : Ty) : Option Wide :=
  match t.toNat with
  | 0 => some .bf16
  | 1 => some .fp16
  | 2 => some .fp32
  | _ => none

def isEven (r : Reg) : Bool := !r.getLsbD 0

/-- The second register of a pair (R80). -/
def pairOf (r : Reg) : Reg := r + 1

/-- A source or destination of 32 elements: one register, or an even pair for FP32 (R90). -/
def pairOk (w : Wide) (r : Reg) : Bool := decide (w ≠ .fp32) || isEven r

/-- Lanes of a vector register, lane 0 first. -/
def lanesOf (w : Nat) (v : Vec) : List Nat := unpackCodes w (512 / w) v.toNat
def ofLanes (w : Nat) (l : List Nat) : Vec := BitVec.ofNat 512 (packCodes w l)

/-- A lane as a signed integer. -/
def signedLane (w v : Nat) : Int := if v.testBit (w - 1) then Int.ofNat v - Int.ofNat (2 ^ w) else Int.ofNat v

/-- Floating-point value of register bits [31:0] (R80). -/
def fp32Of (v : Word64) : Word32 := v.setWidth 32

/-- Fields of a queue address (Table 3.16). -/
def qaX (v : Word64) : Nat := bits v.toNat 6 0
def qaY (v : Word64) : Nat := bits v.toNat 13 7
def qaQueue (v : Word64) : BitVec 4 := BitVec.ofNat 4 (bits v.toNat 17 14)
def qaRemote (v : Word64) : Bool := v.getLsbD 18
def qaDevice (v : Word64) : Half := BitVec.ofNat 16 (bits v.toNat 34 19)
def qaReserved (v : Word64) : Bool := decide (v.toNat / 2 ^ 35 ≠ 0)

end Sys2Proof.Machine
end

