-- ==== Sys2Proof/Machine/Ops.lean ====
section
/-!
DEFINITION. The named operations over a tile: registers, issue and its holds (R45 to R49), faults (R107, R108), TC_EVENT
and the trace (R70, R72), the scratchpad with its check bits (R212 to R214, R482), and the control block (Tables 2.5 to
2.13). The XW49 has no exception entry: an instruction fault stops the core (R107), and `faultCore` is that operation.
-/
namespace Sys2Proof.Machine

abbrev Out := Host.Outcome State Fault Refusal

/-! ### Registers -/

/-- g[r]; g0 is never listed and reads 0 (R80). -/
def Tile.getG (T : Tile) (r : Reg) : Word64 := mget 0 T.g r.toNat
/-- Write g[r]; a write to g0 is discarded (R80). -/
def Tile.setG (T : Tile) (r : Reg) (v : Word64) : Tile :=
  if r = 0 then T else { T with g := mset 0 T.g r.toNat v }
def Tile.getV (T : Tile) (r : Reg) : Vec := mget 0 T.v r.toNat
def Tile.setV (T : Tile) (r : Reg) (v : Vec) : Tile := { T with v := mset 0 T.v r.toNat v }
def Tile.getSlot (T : Tile) (n : BitVec 2) : Slot := mget {} T.slots n.toNat
def Tile.setSlot (T : Tile) (n : BitVec 2) (v : Slot) : Tile := { T with slots := mset {} T.slots n.toNat v }
def Tile.activeSlot (T : Tile) : Slot := T.getSlot T.active
def Tile.getAct (T : Tile) (i : Nat) : Word64 := mget 0 T.act i
/-- Count n more in TC_ACTi (Table 2.13). -/
def Tile.addAct (T : Tile) (i n : Nat) : Tile := { T with act := mset 0 T.act i (T.getAct i + BitVec.ofNat 64 n) }

/-- The register awaits no result any more and holds v (R47, R81). -/
def Tile.deliver (T : Tile) (r : Reg) (v : Word64) : Tile :=
  { (T.setG r v) with await := T.await.erase r }
def Tile.awaits (T : Tile) (r : Reg) : Tile := if r = 0 then T else { T with await := r :: T.await }

/-! ### TC_EVENT and the trace (R70, R72) -/

/-- A trace record: TIME, KIND, SLOT and ARG (Table 2.14). -/
def traceWord (time kind slot arg : Nat) : BitVec 128 :=
  BitVec.ofNat 128 (time % 2 ^ 64 + 2 ^ 64 * kind + 2 ^ 72 * slot + 2 ^ 96 * (arg % 2 ^ 32))

/-- Write the next trace record (R72). -/
def Tile.record (T : Tile) (time kind arg : Nat) : Tile :=
  { T with
    trace := mset 0 T.trace (T.traceWp.toNat % 256) (traceWord time kind T.active.toNat arg)
    traceWp := T.traceWp + 1 }

/-- Write the records that have waited for CCLK. -/
def Tile.flushTrace (T : Tile) : Tile :=
  T.traceHeld.foldl (fun T w => { T with
    trace := mset 0 T.trace (T.traceWp.toNat % 256) w
    traceWp := T.traceWp + 1 }) { T with traceHeld := [] }

/-- CCLK runs again: the records of the events that were set meanwhile are written, with the times of those events (R368; log entry
137). -/
def flushTraces (s : State) : State :=
  forAll (fun s (e : Nat × Tile) =>
    if e.2.traceHeld ≠ [] && clockOn s (XY.ofKey e.1) then modTile s (XY.ofKey e.1) Tile.flushTrace else s) s.tiles s

def traceAt (s : State) (t : XY) (kind arg : Nat) : State :=
  modTile s t (fun T => T.record (gtcOf s t.field) kind arg)

/-- The record of an event, kind 0x03, is written now, or waits while CCLK is stopped, when no counter of Table 2.13 advances,
TC_TRACE_WP among them (R72, R368). -/
def Tile.recordEvent (T : Tile) (runs : Bool) (time b : Nat) : Tile :=
  if runs then T.record time 3 b else { T with traceHeld := T.traceHeld ++ [traceWord time 3 T.active.toNat b] }

/-- Set a TC_EVENT bit. Going from 0 to 1 it is forwarded where TC_EVENT_EN enables it at that moment (R70), under the name that
`how` gives it, and writes a record of kind 0x03, but for SW_EVT and HALTED (R72). -/
def setEventAs (s : State) (t : XY) (b how : Nat) : State :=
  let T := getTile s t
  if T.event.getLsbD b then s
  else
    let T := { T with
      event := T.event ||| (1#14 <<< b)
      raised := if T.eventEn.getLsbD b then T.raised ++ [how] else T.raised }
    setTile s t (if b = evSwEvt || b = evHalted then T else T.recordEvent (clockOn s t) (gtcOf s t.field) b)

/-- PARITY by an error with a name of its own: the error is forwarded under that name also where the bit stands at 1 already, since what
it sets in motion is another's (R457, R432). R70 speaks of the bit alone (DESIGN CHOICE, log entry 168). -/
def setParityAs (s : State) (t : XY) (how : Nat) : State :=
  let s := setEventAs s t evParity how
  let T := getTile s t
  if T.raised.contains how then s else setTile s t { T with raised := T.raised ++ [how] }

/-- Set a TC_EVENT bit, which its own number names. -/
def setEvent (s : State) (t : XY) (b : Nat) : State := setEventAs s t b b

/-! ### Issue -/

/-- The core of this tile may issue now: it fetches (RUN = 1, RUN or WAIT, no route-only slot active, R184), its clock
runs, and no reset holds it. -/
def canIssue (s : State) (t : XY) : Bool :=
  let T := getTile s t
  tileLive s t && T.run && (decide (T.st = .run) || decide (T.st = .wait)) && clockOn s t && !partHeld s t
    && s.boot.resetting.isNone && !T.activeSlot.auto

/-- The core holds at issue (R48): CORE_STATE WAIT, and the same instruction issues again later. -/
def waitCore (s : State) (t : XY) : State := modTile s t (fun T => { T with st := .wait })

/-- An instruction fault (R107): the event bit is set and the core stops in FAULT; RUN stays 1, and nothing of the
instruction takes place. The tile counts for LAUNCH's end (R324). An arrival at a STEP barrier that has been recorded stays, so a tile
that faults while it stands there holds no other back: R103 does not say (DESIGN CHOICE, log entry 161). -/
def faultCore (s : State) (t : XY) (b : Nat) : State :=
  let s := setEvent s t b
  let s := modTile s t (fun T => { T with st := .fault, stepD := none, qu := { T.qu with held := none } })
  match partOf s t with
  | none => s
  | some p => modPart s p (fun P => { P with faulted := P.faulted.orElse (fun _ => some t) })

/-- The program counter moves past n words, the core is in RUN, and TC_ACT6 counts the instruction (R77, Table 2.13). -/
def Tile.retire (T : Tile) (n : Nat) : Tile :=
  { (T.addAct 6 1) with
    pc := T.pc + BitVec.ofNat 13 n
    st := .run
    qu := { T.qu with held := none } }

/-- Issue an instruction of n words: nothing where the core cannot issue; a fault where its words lie beyond 0xFFF or
its encoding is undefined (R79); a hold while a register it names awaits a result (R47) or `hold` says so (Table 2.2);
otherwise its effect. -/
def issue (s : State) (t : XY) (n : Nat) (regs : List Reg) (good : Bool) (hold : Tile → Bool) (act : Tile → State) : Out :=
  .next (
    if canIssue s t then
      let T := getTile s t
      if 4096 < T.pc.toNat + n || !good then faultCore s t evAddrFault
      else if regs.any (fun r => T.await.contains r) || hold T then waitCore s t
      else act T
    else s)

/-- An MDRAIN with RND = 1 is drawing: a later instruction that draws holds at issue (R124). -/
def Tile.drawing (T : Tile) : Bool := T.mat.drain.any (fun x => x.draw)
def holdDraw (rnd : Bool) (T : Tile) : Bool := rnd && T.drawing

/-- A tile's units work on: it is in no hole, its clock runs, and no reset holds it (R48, R58, R107). -/
def unitRuns (s : State) (t : XY) : Bool :=
  tileLive s t && clockOn s t && !partHeld s t && s.boot.resetting.isNone

/-- A unit's access to the scratchpad goes on: a zeroise holds every one (R74, R208). -/
def padRuns (s : State) (t : XY) : Bool := unitRuns s t && !(getTile s t).zeroising

def noHold : Tile → Bool := fun _ => false

/-- An instruction that only computes a scalar result from registers, of n words. -/
def issueG (s : State) (t : XY) (n : Nat) (d : Reg) (regs : List Reg) (good : Bool) (f : Tile → Word64) : Out :=
  issue s t n (d :: regs) good noHold (fun T => setTile s t ((T.setG d (f T)).retire n))

/-- A vector register that an instruction names awaits a result (R47). -/
def holdV (l : List Reg) (T : Tile) : Bool := l.any (fun r => T.awaitV.contains r)

/-- An instruction that only computes a vector result from the vector registers vs; TC_ACT1 counts it. -/
def issueV (s : State) (t : XY) (n : Nat) (d : Reg) (vs regs : List Reg) (good : Bool) (f : Tile → Vec) : Out :=
  issue s t n regs good (holdV (d :: vs)) (fun T => setTile s t (((T.setV d (f T)).addAct 1 1).retire n))

/-! ### The random generator (R59, R60, R62) -/

/-- One step; the output is the new s3. -/
def Tile.rngStep (T : Tile) : Tile :=
  let x := T.s0 ^^^ (T.s0 <<< 11)
  { T with s0 := T.s1, s1 := T.s2, s2 := T.s3, s3 := T.s3 ^^^ (T.s3 >>> 19) ^^^ x ^^^ (x >>> 8) }

/-- n words drawn. -/
def Tile.rngWords (T : Tile) : Nat → List Word32 × Tile
  | 0 => ([], T)
  | n + 1 =>
    let T1 := T.rngStep
    let r := T1.rngWords n
    (T1.s3 :: r.1, r.2)

/-- Two 16-bit draws per word, bits [15:0] first (R60). -/
def halves : List Word32 → List Nat
  | [] => []
  | w :: r => w.toNat % 65536 :: w.toNat / 65536 :: halves r

/-- Draws for n elements: ceil(n/2) words. -/
def Tile.draws (T : Tile) (n : Nat) : List Nat × Tile :=
  let r := T.rngWords (ceilDiv n 2)
  (halves r.1, r.2)

/-- Commit a state of the generator; all zero becomes s3 = 1 (R61). -/
def Tile.seed (T : Tile) (a b c d : Word32) : Tile :=
  let z := a = 0 && b = 0 && c = 0 && d = 0
  { T with s0 := a, s1 := b, s2 := c, s3 := if z then 1 else d }

/-- Seed words that a reset or a LAUNCH gives, the first 64 outputs discarded (R62, R168). -/
def Tile.seedDiscard (T : Tile) (a b c d : Word32) : Tile := ((T.seed a b c d).rngWords 64).2

/-! ### The scratchpad -/

/-- Cells of a word upset since it was last written (R213): one bit and one bit more make two. -/
def Tile.upset (T : Tile) (w : Nat) (u : Upset) : Tile :=
  match u with
  | .none => T
  | .parity => T
  | .double => { T with ecc := mput T.ecc w .bad }
  | .single =>
    match mfind T.ecc w with
    | none => { T with ecc := mput T.ecc w .single }
    | some _ => { T with ecc := mput T.ecc w .bad }

/-- Count a corrected word w: TC_CE at the site, and TC_EVENT.ECC_CE (R213). -/
def countCe (s : State) (t : XY) (w : Nat) : State :=
  let a := siteOf s t
  let s := setSite s a { (getSite s a) with ce := satAdd32 (getSite s a).ce 1 }
  setEvent (modTile s t (fun T => { T with ceWord := w })) t evEccCe

/-- An uncorrectable word w met by a read: TC_EVENT.ECC_UE and 0x4800:02 (R213, R483). -/
def countUe (s : State) (t : XY) (w : Nat) : State :=
  setEvent (modTile (addTotal s 0x4800 2 1) t (fun T => { T with ueWord := w })) t evEccUe

/-- Words that n bytes from a touch. -/
def wordsOf (a n : Nat) : List Nat := if n = 0 then [] else (List.range ((a + n - 1) / 8 - a / 8 + 1)).map (· + a / 8)

/-- A corrected row waits for its write-back (R213). -/
def Tile.correct (T : Tile) (line : Nat) (scrub : Bool) : Tile :=
  { T with wback := mput T.wback line (scrub && decide (mfind T.wback line ≠ some false)) }

/-- What the check of every word of a read finds (R213): true when one is uncorrectable. -/
def checkRead (s : State) (t : XY) : List Nat → State × Bool
  | [] => (s, false)
  | w :: r =>
    match mfind (getTile s t).ecc w with
    | none => checkRead s t r
    | some .single => checkRead (modTile (countCe s t w) t (fun T => T.correct (w / 8) false)) t r
    | some .bad => let x := checkRead (countUe s t w) t r; (x.1, true)

/-- Read n bytes with an upset of the first word they touch. -/
def padRead (s : State) (t : XY) (a n : Nat) (u : Upset) : State × Bool × List Byte :=
  let s := if u = .none then s else modTile s t (fun T => T.upset (a / 8) u)
  let x := checkRead s t (wordsOf a n)
  (x.1, x.2, (getTile s t).mem.bytes a n)

/-- The check bits after a write of n bytes from a: a word wholly covered becomes correct; a word partly covered is read,
corrected when single, and stays bad when bad (R482). -/
def checkWrite (s : State) (t : XY) (a n : Nat) : List Nat → State
  | [] => s
  | w :: r =>
    let T := getTile s t
    match mfind T.ecc w with
    | none => checkWrite s t a n r
    | some e =>
      let whole := decide (a ≤ 8 * w) && decide (8 * w + 8 ≤ a + n)
      let s := if e = .single && !whole then countCe s t w else s
      let s := if whole || e = .single then modTile s t (fun T => { T with ecc := mdel T.ecc w }) else s
      checkWrite s t a n r

/-- A write to a row discards scrub's write-back of it (R216). -/
def Tile.newer (T : Tile) (a n : Nat) : Tile :=
  { T with wback := T.wback.filter (fun e => !e.2 || decide (e.1 < a / 64) || decide ((a + n + 63) / 64 ≤ e.1)) }

/-- Write bytes at a local offset. -/
def padWrite (s : State) (t : XY) (a : Nat) (l : List Byte) : State :=
  let s := checkWrite s t a l.length (wordsOf a l.length)
  modTile s t (fun T => { (T.newer a l.length) with mem := T.mem.store a l })

/-- A write whose parity is wrong: the affected words take the poison pattern, TC_EVENT.PARITY is set and 0x4800:03
counts them (R214, R242). -/
def padPoison (s : State) (t : XY) (a n : Nat) : State :=
  let ws := wordsOf a n
  let s := modTile s t (fun T => { (T.newer a n) with ecc := ws.foldl (fun m w => mput m w .bad) T.ecc })
  setEvent (addTotal s 0x4800 3 ws.length) t evParity

/-- Write bytes whose parity is checked at the array boundary (R214): `bad` is a byte of the write whose parity is wrong, so that
its word takes the poison pattern. -/
def padSend (s : State) (t : XY) (a : Nat) (l : List Byte) (bad : Option Nat) : State :=
  let s := padWrite s t a l
  match bad with
  | none => s
  | some i => if i < l.length then padPoison s t (a + i) 1 else s

/-- A zeroise begins: zero data with valid check bits; every access waits until it ends (R74). -/
def Tile.beginZero (T : Tile) : Tile := { T with mem := [], ecc := [], wback := [], zeroising := true }

/-- It ends, after 12,288 wide accesses of running CCLK (R74, Table 2.13). -/
def Tile.endZero (T : Tile) : Tile := { (T.addAct 2 12288) with zeroising := false }

/-! ### Fences (R105) -/

/-- A local fence is open: a scratchpad access of an instruction that issues now waits in its unit. -/
def Tile.fenced (T : Tile) : Bool := T.fences.any (fun h => match h with
  | .fence _ l _ => l
  | _ => false)
/-- A global fence is open. -/
def Tile.fencedG (T : Tile) : Bool := T.fences.any (fun h => match h with
  | .fence _ _ g => g
  | _ => false)

/-- What an instruction that has issued leaves to do behind the open fences. -/
def Tile.later (T : Tile) (h : Held) : Tile := { T with fences := T.fences ++ [h] }
/-- The same where a local fence is open. -/
def Tile.laterIf (T : Tile) (h : Held) : Tile := if T.fenced then T.later h else T

/-- Held accesses of a kind: the youngest of their unit's list. -/
def Tile.behind (T : Tile) (h : Held) : Nat := T.fences.count h

/-- A held access that waits for local fences, and one that waits for global fences. -/
def Held.loc : Held → Bool
  | .fence _ _ _ => false
  | .send _ => false
  | _ => true
def Held.glob : Held → Bool
  | .send _ => true
  | .put _ => true
  | _ => false

/-- What still waits, and what may proceed, in program order; l and g say which kinds of fence are open before it. -/
def freeGo (l g : Bool) : List Held → List Held × List Held
  | [] => ([], [])
  | .fence d a b :: r =>
    let x := freeGo (l || a) (g || b) r
    (.fence d a b :: x.1, x.2)
  | h :: r =>
    let x := freeGo l g r
    if (h.loc && l) || (h.glob && g) then (h :: x.1, x.2) else (x.1, h :: x.2)

/-- A vector access that waits behind a fence. -/
def Held.vec : Held → Bool
  | .vload _ _ _ => true
  | .vstore _ _ _ => true
  | _ => false

/-- The vector unit holds nothing: no VLD or VST waits in it (Table 2.2; every other vector instruction has its result at issue). -/
def Tile.vecEmpty (T : Tile) : Bool := T.awaitV.isEmpty && !(T.fences.any Held.vec)

/-- An error that a unit meets after its instruction has issued stops the core at its next instruction boundary; the commands of a
tile come at boundaries, so it stops at once, also in place of a wait, and a core in HALT too (R107, R108). While RUN = 0 no core
runs that could stop, and the event bit alone is set (DEDUCED, log entry 138). -/
def stopCore (s : State) (t : XY) (b : Nat) : State :=
  let T := getTile s t
  if T.run && decide (T.st ≠ .fault) then faultCore s t b else setEvent s t b

/-! ### The control block (Tables 2.5 to 2.13) -/

def CoreState.code : CoreState → Nat
  | .stopped => 0
  | .run => 1
  | .wait => 2
  | .barrier => 3
  | .halt => 4
  | .fault => 5

/-- TC_ID of a site (Table 2.6): LOGICAL, Y and X are 0 where it holds no logical tile. -/
def siteId (s : State) (a : SiteId) : Nat :=
  1 <<< 48 + a.pc <<< 26 + a.row <<< 22 + a.field <<< 16
    + (match tileAt s a with
      | some t => 1 <<< 31 + t.y <<< 7 + t.x
      | none => 0)

/-- TC_ID of a logical tile: that of its site. -/
def tcId (s : State) (t : XY) : Nat := siteId s (siteOf s t)

def slotValidMask (T : Tile) : Nat :=
  b2n (T.getSlot 0).valid + 2 * b2n (T.getSlot 1).valid + 4 * b2n (T.getSlot 2).valid + 8 * b2n (T.getSlot 3).valid

/-- K of a site's block: the effective issue cap (R385). -/
def siteCap (s : State) (a : SiteId) : Nat := min (getBlock s a.block).droop (getField s a.field).cap

/-- TC_ISSUE of a site (Table 2.9). -/
def siteIssue (s : State) (a : SiteId) : Nat :=
  b2n (decide ((getField s a.field).thermal < 16)) <<< 9 + b2n (decide ((getBlock s a.block).droop < 16)) <<< 8 + siteCap s a

/-- TC_STATUS (Table 2.7). -/
def tcStatus (s : State) (t : XY) : Nat :=
  let T := getTile s t
  issueCap s t <<< 16 + slotValidMask T <<< 8 + b2n T.zeroising <<< 7
    + b2n (getBlock s (siteOf s t).block).stopped <<< 6 + b2n T.multi <<< 5 + T.st.code <<< 2 + T.active.toNat

/-- TC_ISSUE of a logical tile. -/
def tcIssue (s : State) (t : XY) : Nat := siteIssue s (siteOf s t)

/-- QMASK overlaps that of another valid slot (R57). -/
def maskOverlaps (T : Tile) (n : BitVec 2) (q : Half) : Bool :=
  ([0, 1, 2, 3] : List (BitVec 2)).any (fun i =>
    decide (i ≠ n) && (T.getSlot i).valid && decide ((T.getSlot i).qmask &&& q ≠ 0))

/-- TC_SLOTn (Table 2.10). -/
def Slot.word (v : Slot) : Nat :=
  b2n v.wide <<< 49 + b2n v.valid <<< 48 + v.tag.toNat <<< 32 + v.qmask.toNat <<< 16 + v.entry.toNat

def Tile.getQ (T : Tile) (n : Nat) : Queue := mget {} T.qu.qs n
def Tile.setQ (T : Tile) (n : Nat) (v : Queue) : Tile := { T with qu := { T.qu with qs := mset {} T.qu.qs n v } }

/-- QD_BASE, QD_SIZE, QD_WP and QD_RP of a queue (Tables 9.9 to 9.12). -/
def Queue.word (q : Queue) : Nat → Nat
  | 0 => q.base.toNat <<< 6
  | 1 => q.winsum.toNat <<< 27 + q.maxmsg.toNat <<< 6 + q.log2.toNat
  | 2 => q.wp.toNat
  | _ => q.rp.toNat

/-- The register at an offset of the control block; reserved offsets and a write-only register read 0 (R66). -/
def tcRead (s : State) (t : XY) (off : Nat) : Word64 :=
  let T := getTile s t
  let i := off / 8
  BitVec.ofNat 64 (
    if i = 0 then tcId s t
    else if i = 1 then tcStatus s t
    else if i = 2 then 2 * b2n T.multi + b2n T.run
    else if i = 3 then tcIssue s t
    else if i < 8 then (T.getSlot (BitVec.ofNat 2 (i - 4))).word
    else if i = 8 then T.event.toNat
    else if i = 9 then T.eventEn.toNat
    else if i = 10 then T.s1.toNat <<< 32 + T.s0.toNat
    else if i = 11 then T.s3.toNat <<< 32 + T.s2.toNat
    else if i = 12 then T.sendStall.toNat
    else if i = 13 then gtcOf s t.field
    else if i = 14 then T.traceWp.toNat
    else if i < 16 then 0
    else if i < 24 then (T.getAct (i - 16)).toNat
    else if i < 28 then (mget 0 T.slotCyc (i - 24)).toNat
    else if i = 28 then T.balStall.toNat
    else if i = 29 then T.ovf.toNat
    else if i = 30 then (getSite s (siteOf s t)).ce.toNat
    else if i = 31 then (getSite s (siteOf s t)).indigo.toNat
    else if i < 256 then 0
    else if i < 320 then (T.getQ ((i - 256) / 4)).word ((i - 256) % 4)
    else if i < 512 then 0
    else if i < 1024 then (mget 0 T.trace ((i - 512) / 2)).toNat >>> (64 * ((i - 512) % 2)) % 2 ^ 64
    else 0)

/-- The register at an offset of a physical site's control block: the block of the logical tile that it holds; of a site that
holds none its identity, its zeroise, the clock and the effective cap of its block, the GTC and the two counters that stay with the site; what
moves with a tile stands there at its reset value (R66, R385, Tables 2.15 and 8.4; log entry 139). -/
def siteRead (s : State) (a : SiteId) (off : Nat) : Word64 :=
  match tileAt s a with
  | some t => tcRead s t off
  | none =>
    BitVec.ofNat 64 (match off / 8 with
      | 0 => siteId s a
      | 1 => siteCap s a <<< 16 + b2n (decide ((getSite s a).zeroLeft ≠ 0)) <<< 7 + b2n (getBlock s a.block).stopped <<< 6
      | 3 => siteIssue s a
      | 9 => 0x3FFF
      | 12 => 0x00400000
      | 13 => gtcOf s a.field
      | 30 => (getSite s a).ce.toNat
      | 31 => (getSite s a).indigo.toNat
      | _ => 0)

/-! ### The management and control space (R222, Table 8.4) -/

/-- Where an address of the space leads: the part and the offset in it. -/
inductive Mgmt where
  | tile (t : XY) (off : Nat)
  | site (a : SiteId) (off : Nat)
  | controller (field off : Nat)
  | complex (dc off : Nat)
  | cuff (n off : Nat)
deriving DecidableEq, Repr

/-- The decode of Table 8.4, none outside its parts. -/
def mgmtDecode (a : Nat) : Option Mgmt :=
  let o := a % 2 ^ 32
  match a / 2 ^ 32 with
  | 0xF00 => if o < 2 ^ 30 && bits o 29 23 < 112 && bits o 22 16 < 112 then some (.tile ⟨bits o 22 16, bits o 29 23⟩ (o % 2 ^ 16)) else none
  | 0xF01 =>
    let x : SiteId := ⟨bits o 30 25, bits o 24 21, bits o 20 16⟩
    if o < 2 ^ 31 && x.valid then some (.site x (o % 2 ^ 16)) else none
  | 0xF02 => if o / 2 ^ 24 < 49 then some (.controller (o / 2 ^ 24) (o % 2 ^ 24)) else none
  | 0xF03 => if o / 2 ^ 20 < 28 then some (.complex (o / 2 ^ 20) (o % 2 ^ 20)) else none
  | 0xF04 => if o / 2 ^ 24 < 4 then some (.cuff (o / 2 ^ 24) (o % 2 ^ 24)) else none
  | _ => none

/-- A read of the space by a field controller: tile control blocks alone are documented (R222). -/
def mgmtRead (s : State) (a : Nat) : Option Word64 :=
  match mgmtDecode a with
  | some (.tile t off) => if tileLive s t then some (tcRead s t off) else none
  | some (.site x off) => if fieldAlive s x.field then some (siteRead s x off) else none
  | _ => none

/-- TC_EVENT_EN: the forced bits stay 1 (R70). -/
def Tile.writeEventEn (T : Tile) (v : Word64) : Tile := { T with eventEn := v.setWidth 14 ||| evForced }

/-- TC_SEND_STALL: at least 0x1000 (Table 2.12). -/
def Tile.writeSendStall (T : Tile) (v : Word64) : Tile :=
  { T with sendStall := if v.toNat % 2 ^ 32 < 0x1000 then 0x1000 else v.setWidth 32 }

/-- TC_EVENT is write-one-to-clear. -/
def Tile.clearEvents (T : Tile) (v : Word64) : Tile := { T with event := T.event &&& ~~~(v.setWidth 14) }

/-- TC_RNG_SEED_HI commits all 128 bits with what TC_RNG_SEED_LO holds (R61): the value of its last write, also one that an earlier
commit has used, and 0 where nothing has written it (DEDUCED, log entry 140). -/
def Tile.commitSeed (T : Tile) (v : Word64) : Tile :=
  T.seed (T.seedLo.setWidth 32) ((T.seedLo >>> 32).setWidth 32) (v.setWidth 32) ((v >>> 32).setWidth 32)

/-- A write by the tile's own core: only five registers, any other is ignored (R67). -/
def tcCoreWrite (T : Tile) (off : Nat) (v : Word64) : Tile :=
  match off / 8 with
  | 8 => T.clearEvents v
  | 9 => T.writeEventEn v
  | 10 => { T with seedLo := v }
  | 11 => T.commitSeed v
  | 12 => T.writeSendStall v
  | _ => T

end Sys2Proof.Machine
end

