-- ==== Sys2Proof/Machine/Mesh.lean ====
section
/-!
DEFINITION. The mesh: the address map (R218, R219), DRAM interleave (R226, R227), attachment tiles (R254, R295), routes
(R247 to R250), injection, and the requester's transactions (R49, R85 to R87, R255).
-/
namespace Sys2Proof.Machine

/-! ### DRAM placement -/

def dramBase : Nat := 0x010000000000
/-- DRAM addresses, the device-reserved granule included (Table 8.3). -/
def isDram (a : Nat) : Bool := decide (dramBase ≤ a) && decide (a < 0x025000000000)
def granuleOf (a : Nat) : Nat := (a - dramBase) / 2 ^ 30

/-- Channel page (row) and channel of a DRAM address in HASH mode (R226). -/
def hashMap (a : Nat) : Nat × Nat :=
  let p := (a - dramBase) >>> 12
  let row := p / 224
  let h := ((row ^^^ (row >>> 9) ^^^ (row >>> 17)) * 37) % 224
  (row, (p % 224 + h) % 224)

/-- The same in LOCAL mode (R227). -/
def localMap (a : Nat) : Nat × Nat :=
  let d := a - dramBase
  let c := d / (48 * 2 ^ 30)
  let q := (d % (48 * 2 ^ 30)) >>> 12
  let row := q / 8
  (row, 8 * c + (q % 8 + row) % 8)

def dramMap (s : State) (a : Nat) : Nat × Nat := if s.dram.loc then localMap a else hashMap a

def getChannel (s : State) (ch : Nat) : Channel := mget {} s.dram.channels ch
def setChannel (s : State) (ch : Nat) (v : Channel) : State :=
  { s with dram := { s.dram with channels := mset {} s.dram.channels ch v } }
def getComplex (s : State) (dc : Nat) : Complex := mget {} s.dram.complexes dc
def setComplex (s : State) (dc : Nat) (v : Complex) : State :=
  { s with dram := { s.dram with complexes := mset {} s.dram.complexes dc v } }

/-- A channel answers no access: it is faulted, or its complex is lost (R235). -/
def chanDead (s : State) (ch : Nat) : Bool := (getChannel s ch).faulted || (getComplex s (ch / 8)).lost

/-! ### Edges (Tables 1.8 and 1.9) -/

inductive Side where
  | north
  | east
  | south
  | west
deriving DecidableEq, Repr

/-- The field and side of a DRAM controller complex (Table 1.8). -/
def edgeOf (dc : Nat) : Nat × Side :=
  if dc < 7 then (dc, .north)
  else if dc < 14 then (6 + 7 * (dc - 7), .east)
  else if dc < 21 then (48 - (dc - 14), .south)
  else (42 - 7 * (dc - 21), .west)

/-- Edge tile j of a side of a field: the logical column west to east, or the row north to south (R254). -/
def edgeTile (f : Nat) (d : Side) (j : Nat) : XY :=
  let x := 16 * (f % 7)
  let y := 16 * (f / 7)
  match d with
  | .north => ⟨x + j, y⟩
  | .south => ⟨x + j, y + 15⟩
  | .west => ⟨x, y + j⟩
  | .east => ⟨x + 15, y + j⟩

/-- A VALID aperture (Table 11.7). -/
def getAp (s : State) (n : Nat) : Option Ap :=
  match mfind s.xdt.aps n with
  | none => none
  | some a => if a.valid then some a else none

/-- The first of j, j + 1, … modulo 16 that lies in no hole; none where all 16 do (R254, R40). -/
def attachFrom (s : State) (f : Nat) (d : Side) (j : Nat) : Option XY :=
  ((List.range 16).map (fun i => edgeTile f d ((j + i) % 16))).find? (fun t => !(isHole s t))

/-- A complex is unreachable when all its attachment tiles lie in holes (R40). -/
def dcUnreachable (s : State) (dc : Nat) : Bool := (attachFrom s (edgeOf dc).1 (edgeOf dc).2 0).isNone

/-- Every access to a channel gets an error response: it has faulted, its complex is lost with its field, or unreachable (R40,
R235). -/
def chanShut (s : State) (ch : Nat) : Bool := chanDead s ch || dcUnreachable s (ch / 8)
/-- The arrays of a complex are in self-refresh: all are, or the complex is unreachable (R40, R236). -/
def dcRests (s : State) (dc : Nat) : Bool := s.dram.selfRefresh || dcUnreachable s dc

/-- Live attachment columns of Cuff-N north or south (R39, R295). -/
def cuffColumns (s : State) (south : Bool) : List XY :=
  let f0 := if south then 44 else 2
  ([0, 1, 2].map (· + f0)).flatMap (fun f =>
    let ts := (List.range 16).map (edgeTile f (if south then .south else .north))
    if fieldAlive s f then ts.filter (fun t => !(isHole s t)) else [])

def nthCyc {α : Type} (l : List α) (k : Nat) : Option α := if l.length = 0 then none else l[k % l.length]?

/-- Cuff-N south carries ports 8 to 15 (Table 1.9). -/
def connSouth (conn : Nat) : Bool := decide (8 ≤ conn / 256)

/-! ### Where a global address ends (R218 to R220) -/

/-- The endpoint of an address: the attachment or target tile and its unit; none for an address with no endpoint. -/
def endpoint (s : State) (a : Nat) : Option (XY × Unit_) :=
  if a < 2 ^ 36 then
    let t : XY := ⟨bits a 28 22, bits a 35 29⟩
    if t.inGrid && decide (a % 2 ^ 22 < padTop) && !(isHole s t) then some (t, .tile) else none
  else if isDram a then
    let m := dramMap s a
    (attachFrom s (edgeOf (m.2 / 8)).1 (edgeOf (m.2 / 8)).2 (2 * (m.2 % 8) + m.1 % 2)).map (fun t => (t, .dram))
  else if 0x080000000000 ≤ a && a < 0x090000000000 then
    (attachFrom s 21 .west (bits a 15 12)).map (fun t => (t, .host .a))
  else if 0x090000000000 ≤ a && a < 0x0A0000000000 then
    (attachFrom s 27 .east (bits a 15 12)).map (fun t => (t, .host .b))
  else if 0x0A0000000000 ≤ a && a < 0x0E0000000000 then
    let south := match getAp s ((a - 0x0A0000000000) / 2 ^ 34) with
      | some ap => connSouth ap.conn
      | none => false
    (nthCyc (cuffColumns s south) (a >>> 12)).map (fun t => (t, .cuffN south))
  else none

/-- Pieces of n bytes from a: cut at every 4 MiB in the scratchpad window, at every 4 KiB elsewhere (R255). -/
def piecesGo : Nat → Nat → Nat → List (Nat × Nat)
  | 0, _, _ => []
  | k + 1, a, n =>
    if n = 0 then []
    else
      let b := if a < 2 ^ 36 then 2 ^ 22 else 4096
      let m := min n (b - a % b)
      (a, m) :: piecesGo k (a + m) (n - m)
def pieces (a n : Nat) : List (Nat × Nat) := piecesGo 4 a n

/-! ### Routes (R247 to R250) -/

/-- The next tile of a dimension-order XY leg, x first (R247). -/
def xyStep (a b : XY) : XY :=
  if a.x < b.x then ⟨a.x + 1, a.y⟩
  else if b.x < a.x then ⟨a.x - 1, a.y⟩
  else if a.y < b.y then ⟨a.x, a.y + 1⟩
  else if b.y < a.y then ⟨a.x, a.y - 1⟩
  else a

/-- Every hop of the leg enters no hole and uses no dead link (R249). -/
def legClearGo (s : State) (rsp : Bool) (dst : XY) : Nat → XY → Bool
  | 0, a => decide (a = dst)
  | n + 1, a =>
    if a = dst then true
    else
      let b := xyStep a dst
      !(isHole s b) && !(linkDead s rsp a b) && legClearGo s rsp dst n b
def legClear (s : State) (rsp : Bool) (a dst : XY) : Bool := legClearGo s rsp dst 224 a

/-- Waypoint rows in the order of R249: s.y, d.y, then outward, north before south. -/
def waypointRows (sy dy : Nat) : List Nat :=
  sy :: dy :: (List.range 112).flatMap (fun k =>
    (if k + 1 ≤ sy then [sy - (k + 1)] else []) ++ (if sy + k + 1 < 112 then [sy + k + 1] else []))

/-- The route that the source computes (R249). -/
def routeOf (s : State) (rsp : Bool) (src dst : XY) (mid : Option XY) : Route :=
  let plain := match mid with
    | some m => legClear s rsp src m && legClear s rsp m dst
    | none => legClear s rsp src dst
  if plain then (match mid with
    | some m => .valiant m
    | none => .direct)
  else
    match (waypointRows src.y dst.y).find? (fun y =>
      legClear s rsp src ⟨src.x, y⟩ && legClear s rsp ⟨src.x, y⟩ dst) with
    | some y => .detour ⟨src.x, y⟩
    | none => .unreachable

/-- Count a route in 0x2800:06 or :07 (R250). -/
def countRoute (s : State) : Route → State
  | .unreachable => addTotal s 0x2800 6 1
  | .detour _ => addTotal s 0x2800 7 1
  | _ => s

/-! ### Packets -/

def PktType.rsp : PktType → Bool
  | .readReq => false
  | .write => false
  | .msg => false
  | .opn => false
  | .cls => false
  | _ => true

/-- A packet with nothing but its type and ends. -/
def mkPkt (ty : PktType) (src dst : XY) (u : Unit_) : Pkt :=
  { type := ty, src := src, dst := dst, unit := u, origin := .tile, route := .direct, at_ := src, passedMid := false,
    tag := 0, piece := 0, sys := true, ctx := 0, addr := 0, len := 0, payload := [], poison := false, seq := 0,
    queue := 0, ch := 0, pin := false, win := 0, status := 0, remote := none, far := dst, part := none }

/-- CTX and SYS of a tile's traffic (Table 9.3). -/
def Pkt.owned (s : State) (p : Option Nat) (k : Pkt) : Pkt :=
  match p with
  | none => k
  | some i => match (getPart s i).ctx with
    | none => { k with part := p }
    | some c => { k with part := p, sys := false, ctx := c }

/-- Flits of a train: packets of up to 8,192 payload bytes with a 16-byte header each (R243, R245). -/
def flitsOf (n : Nat) : Nat :=
  let full := n / 8192
  let r := n % 8192
  full * 129 + (if r ≠ 0 || full = 0 then ceilDiv (16 + r) 64 else 0)

/-- A context reset is flushing this packet's context: every train that names it is discarded (R268). -/
def flushingPkt (s : State) (k : Pkt) : Bool :=
  !k.sys && s.mesh.flushing.any (fun p => decide ((getPart s p).ctx = some k.ctx))

/-- The end of the leg that the train is on (Table 9.6). -/
def Pkt.legEnd (k : Pkt) : XY :=
  if k.passedMid then k.dst
  else match k.route with
    | .valiant m => m
    | .detour m => m
    | _ => k.dst

/-- The virtual channel of the leg (Table 9.6). -/
def Pkt.vc (k : Pkt) : Nat :=
  match k.route with
  | .valiant _ => if k.passedMid then 1 else 0
  | .detour _ => if k.passedMid then 2 else 1
  | _ => 1

/-- The port of a router at which a unit sends. -/
def Unit_.port : Unit_ → Nat
  | .tile => 0
  | .dram => 1
  | _ => 2

/-- Put a packet whose route is known into the mesh: all its flits stand at its source's port. -/
def addPkt (s : State) (k : Pkt) : State :=
  if flushingPkt s k then s
  else
    let k := { k with passedMid := decide (k.at_ = k.legEnd) }
    let k := { k with trail := [(⟨k.at_, k.at_, k.vc, k.source.port⟩, flitsOf k.payload.length)], stamp := s.mesh.order }
    { s with mesh := { s.mesh with
      pkts := mput s.mesh.pkts s.mesh.nextId k, nextId := s.mesh.nextId + 1, order := s.mesh.order + 1 } }

/-! ### Buffers, virtual channels and their order (R245, R246, R265, R267, R295) -/

/-- The buffer that holds the train's head flit. -/
def Pkt.head (k : Pkt) : Option Buf := k.trail.head?.map (·.1)

/-- Train j stands before train k in the buffer of k's head: it has flits there and came in first. -/
def ahead (j k : Pkt) : Bool :=
  j.type.rsp == k.type.rsp && (match k.head with
    | none => false
    | some v => j.trail.any (fun x => decide (x.1 = v)) && (decide (j.head ≠ some v) || decide (j.stamp < k.stamp)))

/-- No other train stands before the train in its buffer. -/
def isFront (s : State) (pid : Nat) (k : Pkt) : Bool := s.mesh.pkts.all (fun e => decide (e.1 = pid) || !(ahead e.2 k))

/-- Flits that a network's trains have in a buffer. -/
def occupied (s : State) (rsp : Bool) (v : Buf) : Nat :=
  sumOf (fun (e : Nat × Pkt) => if e.2.type.rsp = rsp then ((e.2.trail.filter (fun x => decide (x.1 = v))).map (·.2)).sum else 0)
    s.mesh.pkts

/-- Free entries of a buffer of 16 flits; a unit that sends holds what its port has not yet taken. -/
def room (s : State) (rsp : Bool) (v : Buf) : Nat := 16 - occupied s rsp v

/-- The train has begun on the output virtual channel that leads to buffer v, and its last flit has not passed: no other train
may use that channel. -/
def Pkt.spans (k : Pkt) (v : Buf) : Bool := k.trail.dropLast.any (fun x => decide (x.1 = v))

/-- The input of a router by number: the tile's port, the outward port, the links from north, east, south and west. -/
def Buf.input (v : Buf) : Nat :=
  if v.a = v.b then min v.port 1
  else if v.a.y < v.b.y then 2
  else if v.b.x < v.a.x then 3
  else if v.b.y < v.a.y then 4
  else 5

/-- The buffer that the train's next hop leads to. -/
def Pkt.next (k : Pkt) : Buf := ⟨k.at_, xyStep k.at_ k.legEnd, k.vc, 0⟩

/-- A train at an outward port that a DRAM complex and a cuff share: it waits while a train of the other is going in, and takes
turns with it (R295). -/
def outwardKey (t : XY) (rsp : Bool) : Nat := 2 ^ 40 + 2 * t.key + b2n rsp
def outwardTurn (s : State) (k : Pkt) : Bool :=
  match k.head with
  | none => true
  | some v =>
    if v.a ≠ v.b || v.port = 0 then true
    else
      let other (j : Pkt) : Bool := j.type.rsp == k.type.rsp && j.trail.any (fun x =>
        decide (x.1.a = v.a) && decide (x.1.b = v.a) && decide (x.1.port = 3 - v.port))
      let going := s.mesh.pkts.any (fun e => other e.2 && decide (e.2.at_ ≠ v.a))
      let waiting := s.mesh.pkts.any (fun e => other e.2 && decide (e.2.at_ = v.a))
      !going && (!waiting || decide (mget 0 s.mesh.served (outwardKey v.a k.type.rsp) ≠ 1 + v.port))

/-- The key of an output virtual channel. -/
def outKey (v : Buf) (rsp : Bool) : Nat := 2 * (3 * (12544 * v.a.key + v.b.key) + v.vc) + b2n rsp

/-- The train can leave its unit: the bytes of a GDMA.PUT can be read there, which a tile whose clock is stopped or whose scratchpad
is being zeroised does not do (R58, R208); transit traffic does not wait for it (R267). -/
def Pkt.ready (k : Pkt) (s : State) : Bool := k.loc.isNone || padRuns s k.src

/-- The inputs whose front train asks for the output virtual channel that leads to buffer v. -/
def askers (s : State) (rsp : Bool) (v : Buf) : List Nat :=
  s.mesh.pkts.filterMap (fun e =>
    if e.2.type.rsp == rsp && decide (e.2.at_ = v.a) && decide (e.2.at_ ≠ e.2.legEnd) && decide (e.2.next = v)
        && isFront s e.1 e.2 && outwardTurn s e.2 && e.2.ready s then e.2.head.map Buf.input else none)

/-- The input whose turn it is: the first that asks after the one served last. -/
def turnOf (s : State) (rsp : Bool) (v : Buf) : Option Nat :=
  let last := mget 0 s.mesh.served (outKey v rsp)
  let l := askers s rsp v
  ((List.range 6).map (fun i => (last + i) % 6)).find? (fun i => l.contains i)

/-- The train's head may take its next hop: it is at the front of its buffer and has its turn, the output virtual channel
carries no other train, and the next buffer has room. -/
def hopFree (s : State) (pid : Nat) (k : Pkt) : Bool :=
  let v := k.next
  isFront s pid k && outwardTurn s k && k.ready s && !(s.mesh.pkts.any (fun e => decide (e.1 ≠ pid) && e.2.type.rsp == k.type.rsp && e.2.spans v))
    && (k.head.isNone || decide (turnOf s k.type.rsp v = k.head.map Buf.input)) && decide (0 < room s k.type.rsp v)

/-- The flits of a train close up: as many as fit from the head backwards, the rest at the port of the source. -/
def closeUp (fits : Buf → Nat) : List (Buf × Nat) → Nat → List (Buf × Nat)
  | [], _ => []
  | (v, n) :: r, left =>
    let m := if v.a = v.b then left else min left (n + fits v)
    if left = 0 then [] else (v, m) :: closeUp fits r (left - m)

def Pkt.flits (k : Pkt) : Nat := (k.trail.map (·.2)).sum

/-- The train with its flits closed up behind a head that stands in the first buffer of the list. -/
def Pkt.settle (s : State) (k : Pkt) (trail : List (Buf × Nat)) : Pkt :=
  { k with trail := closeUp (room s k.type.rsp) trail k.flits }

def putPkt (s : State) (pid : Nat) (k : Pkt) : State :=
  { s with mesh := { s.mesh with pkts := mput s.mesh.pkts pid k } }

/-- The head moves into the next buffer, and its input has been served. -/
def hop (s : State) (pid : Nat) (k : Pkt) : State :=
  let v := k.next
  let inp := (k.head.map Buf.input).getD 0
  let m := { s.mesh with order := s.mesh.order + 1, served := mset 0 s.mesh.served (outKey v k.type.rsp) (inp + 1) }
  let m := match k.head with
    | some w => if w.a = w.b && w.port ≠ 0 then
        { m with served := mset 0 m.served (outwardKey w.a k.type.rsp) (1 + w.port) } else m
    | none => m
  let k' := (k.settle s ((v, 0) :: k.trail))
  let k' := { k' with at_ := v.b, stamp := s.mesh.order }
  let k' := { k' with passedMid := k.passedMid || decide (v.b = k.legEnd) }
  putPkt { s with mesh := m } pid k'

/-- Route and inject at the source: the state, and whether the train went in (an unreachable one does not, R250). -/
def inject (s : State) (k : Pkt) (mid : Option XY) : State × Bool :=
  let r := routeOf s k.type.rsp k.src k.dst mid
  let s := countRoute s r
  if r = .unreachable then (s, false) else (addPkt s { k with route := r }, true)

/-- The same by a unit of the source tile, whose TC_ACT5 counts the flits. -/
def injectTile (s : State) (k : Pkt) : State × Bool :=
  let x := inject s k none
  if x.2 then (modTile x.1 k.src (fun T => T.addAct 5 (flitsOf k.payload.length)), true) else x

/-- Where the response to a request ends: at the requesting tile, at the Cuff-H of a BAR2 access, or at the Cuff-N of a
remote message or request. -/
def Pkt.back (k : Pkt) : Unit_ :=
  match k.remote with
  | some (_, c) => .cuffN (connSouth c)
  | none => match k.origin with
    | .tile => .tile
    | .bar2 f _ => .host f.port
    | .xdt c _ => .cuffN (connSouth c)
    | .cmd p _ _ _ => .host p

/-- The response to a request: TAG and CTX copied, SRC and DST swapped (R244); lost where unreachable (R250). `bad`: the packets that
leave poisoned, each with its first such flit (R483). -/
def respondWith (s : State) (req : Pkt) (ty : PktType) (status : Byte) (payload : List Byte) (poison : Bool) (bad : List (Nat × Nat)) :
    State :=
  let k := { req with
    type := ty, src := req.dst, dst := req.src, unit := req.back, at_ := req.dst, passedMid := false
    payload := payload, poison := poison, badPkts := bad, status := status, pin := false, source := req.unit }
  if req.unit = .tile then (injectTile s k).1 else (inject s k none).1

/-- A response of which no flit leaves poisoned. -/
def respond (s : State) (req : Pkt) (ty : PktType) (status : Byte) (payload : List Byte) (poison : Bool) : State :=
  respondWith s req ty status payload poison []

def removePkt (s : State) (pid : Nat) : State :=
  { s with mesh := { s.mesh with pkts := mdel s.mesh.pkts pid } }

/-- A request whose train a router discards is answered from that router (R251, R485). At which of the router's inputs its ERROR enters
the mesh no rule says: it enters as that of a unit at the outward port does, with its turns (DESIGN CHOICE, log entry 169). -/
def routerError (s : State) (k : Pkt) : State :=
  if k.type = .readReq || k.type = .write then
    respond s { k with dst := k.at_, unit := .dram } .error stNotReady [] false
  else s

/-- A router discards the whole train. -/
def discardTrain (s : State) (pid : Nat) (k : Pkt) : State :=
  routerError (addTotal (removePkt s pid) 0x2800 6 1) k

/-- Messages of one pinned channel land in sending order (R265): an earlier one is still under way. -/
def pinnedBefore (s : State) (pid : Nat) (k : Pkt) : Bool :=
  k.pin && decide (k.type = .msg) && s.mesh.pkts.any (fun e => decide (e.1 < pid) && decide (e.2.type = .msg) && e.2.pin
    && decide (e.2.src = k.src) && decide (e.2.ch = k.ch) && decide (e.2.dst = k.dst) && decide (e.2.far = k.far)
    && decide (e.2.remote = k.remote))

/-- A packet whose turn it is at the router of its destination: its head stands there, at the front of its buffer, and its bytes can be
read where they are still to be. -/
def atEnd (s : State) (pid : Nat) (k : Pkt) : Bool :=
  decide (k.at_ = k.dst) && isFront s pid k && !(pinnedBefore s pid k) && k.ready s

/-- A packet of a given type that stands so at its destination. -/
def arrived (s : State) (pid : Nat) (ty : PktType) : Option Pkt :=
  match mfind s.mesh.pkts pid with
  | none => none
  | some k => if k.type = ty && atEnd s pid k then some k else none

/-- A tile takes packets: its clock runs, its scratchpad is not being zeroised, and its row is not broken
(R58, R74, R485). -/
def takes (s : State) (t : XY) : Bool := tileLive s t && clockOn s t && !(getTile s t).zeroising

/-- A BAR2 access has ended: the read's data, or Completer Abort (R310). -/
def endBar2 (s : State) (f : Fn) (id : Nat) (data : Option (List Byte)) : State :=
  match mfind (portOf s f.port).bar2 id with
  | none => s
  | some _ =>
    let s := modPort s f.port (fun P => { P with bar2 := mdel P.bar2 id })
    match data with
    | none => emit s (.bar2Abort f id)
    | some l => emit s (.bar2Data f id l)

/-! ### Rights (R220, R300) -/

/-- The tile that a scratchpad-window address names (R219). -/
def windowTile (a : Nat) : XY := ⟨bits a 28 22, bits a 35 29⟩

/-- A tile's request, or one of a host command, which acts with the rights of its context's partition (R322). -/
def Origin.full : Origin → Bool
  | .tile => true
  | .cmd _ _ _ _ => true
  | _ => false

/-- A request with the rights of a partition may reach the address at the unit where it ends: slots of the partition's
tiles, DRAM granules that it owns or that are SHARED by a partition of its port, and, for its own tiles only, its port's
host window and the apertures granted to it. -/
def mayReach (s : State) (k : Pkt) : Bool :=
  match k.part with
  | none => false
  | some p =>
    match k.unit with
    | .tile => decide (partOf s (windowTile k.addr) = some p)
    | .dram => match mfind s.dram.granules (granuleOf k.addr) with
      | none => false
      | some g => decide (g.owner = p) || (g.shared && decide ((getPart s g.owner).port = (getPart s p).port))
    | .host h => k.origin.full && decide ((getPart s p).port = h)
    | .cuffN _ => k.origin.full &&
      (match getAp s ((k.addr - 0x0A0000000000) / 2 ^ 34) with
      | none => false
      | some ap => decide (ap.part = p))

/-! ### Transactions (R49, R87, R255) -/

/-- The lowest free TAG. -/
def freeTag (T : Tile) : Option Nat := (List.range 64).find? (fun k => (mfind T.tx k).isNone)

/-- An error response stops the core (R87, R107, R108). -/
def errorStop (s : State) (t : XY) : State := stopCore s t evAddrFault

/-- Responses that wait at their tile for a fence are discarded. -/
def dropWaiting (s : State) (f : Pkt → Bool) : State :=
  if s.mesh.waiting.any f then { s with mesh := { s.mesh with waiting := s.mesh.waiting.filter (fun k => !(f k)) } } else s

/-- A transaction has completed: with an error, a GLD writes zero (R87) and the core stops. -/
def finishTx (s : State) (t : XY) (tag : Nat) (x : Tx) : State :=
  let s := modTile s t (fun T => { T with tx := mdel T.tx tag, fences := T.fences.filter (fun h => decide (h ≠ .land tag)) })
  let s := dropWaiting s (fun k => decide (k.dst = t) && decide (k.tag = tag))
  if x.failed then
    let s := match x.kind with
      | .gld d _ _ => modTile s t (fun T => T.deliver d 0)
      | _ => s
    errorStop s t
  else s

/-- One piece of a transaction has completed; the transaction completes with its last piece (R255). -/
def donePiece (s : State) (t : XY) (tag piece : Nat) (bad : Bool) : State :=
  match mfind (getTile s t).tx tag with
  | none => s
  | some x =>
    if x.open_.contains piece then
      let x := { x with open_ := x.open_.erase piece, failed := x.failed || bad }
      if x.open_ = [] then finishTx s t tag x else modTile s t (fun T => { T with tx := mput T.tx tag x })
    else s

/-- A word of the range holds uncorrectable data (R483). -/
def badIn (T : Tile) (a n : Nat) : Bool := (wordsOf a n).any (fun w => decide (mfind T.ecc w = some .bad))

/-- The bytes of a train's payload that its flit n carries: where they begin, and how many (R243). -/
def flitBytes (len n : Nat) : Nat × Nat :=
  let p := n / 129
  let j := n % 129
  let lo := 8192 * p + (64 * j - 16)
  let hi := min (8192 * p + (64 * j + 48)) (min (8192 * (p + 1)) len)
  (lo, hi - lo)

/-- The packets of a train of n bytes read from a local offset that hold an uncorrectable word, each with its first flit that does: that
flit and the later ones of its packet are sent with POISON (R242, R483). -/
def badFrom (T : Tile) (a n : Nat) : List (Nat × Nat) :=
  let flits := (List.range (flitsOf n)).filter (fun i => badIn T (a + (flitBytes n i).1) (flitBytes n i).2)
  flits.foldl (fun l i => if l.any (fun x => decide (x.1 = i / 129)) then l else l ++ [(i / 129, i % 129)]) []

/-- The bytes of a GDMA.PUT leave the scratchpad through the narrow port; they are poisoned where a word is bad (R86, R483). -/
def readPut (s : State) (t : XY) (k : Pkt) (loc : Nat) : State × Pkt :=
  let T := getTile s t
  (modTile (checkRead s t (wordsOf loc k.len)).1 t (fun T => T.addAct 3 (ceilDiv k.len 64)),
    { k with payload := T.mem.bytes loc k.len, poison := badIn T loc k.len, badPkts := badFrom T loc k.len, loc := none })

/-- The train with its bytes: those of a GDMA.PUT are read as it leaves its tile, or, where it makes no hop, as the unit there takes it
(R86, R208, R483). -/
def readIn (s : State) (pid : Nat) (k : Pkt) : State × Pkt :=
  match k.loc with
  | none => (s, k)
  | some o =>
    let y := readPut s k.src k o
    (putPkt y.1 pid y.2, y.2)

def TxKind.writes : TxKind → Bool
  | .gst _ => true
  | .put _ => true
  | _ => false

/-- What a piece of a transaction carries: the bytes of a GST; those of a GDMA.PUT stay in the scratchpad until the train leaves, or
until it is taken where it ends at its own tile. -/
def pieceData (x : Tx) (k : Pkt) : Pkt :=
  match x.kind with
  | .gst l => { k with payload := l }
  | .put loc => { k with payload := zeros k.len, loc := some (loc + (k.addr - x.addr)) }
  | _ => k

/-- An address without an endpoint, of which a DRAM complex, a Cuff-H or a Cuff-N has lost its attachment, is unreachable
(R250, R254, R330); any other names nothing (R219, R220). -/
def noEndpoint (s : State) (a : Nat) : State :=
  if isDram a || (decide (0x080000000000 ≤ a) && decide (a < 0x0E0000000000)) then countRoute s .unreachable else s

/-- Send the pieces of a transaction that the tile has entered under a tag: a piece without endpoint or without route
completes as an error at the source (R220, R250). -/
def sendPieces (s : State) (t : XY) (tag : Nat) (x : Tx) : Nat → List (Nat × Nat) → State
  | _, [] => s
  | i, (a, n) :: r =>
    let s1 := match endpoint s a with
      | none => donePiece (noEndpoint s a) t tag i true
      | some (dst, u) =>
        let k0 := Pkt.owned s (partOf s t) (mkPkt (if x.kind.writes then .write else .readReq) t dst u)
        let z := injectTile s (pieceData x { k0 with tag := tag, piece := i, addr := a, len := n })
        if z.2 then z.1 else donePiece z.1 t tag i true
    sendPieces s1 t tag x (i + 1) r

/-- Send the requests of a transaction. -/
def sendTx (s : State) (t : XY) (tag : Nat) : State :=
  match mfind (getTile s t).tx tag with
  | none => s
  | some x => sendPieces s t tag x 0 (pieces x.addr x.len)

/-- Issue one transaction. Behind an open global fence it waits, and behind an open local fence the local side of a GDMA does
(R105). -/
def startTx (s : State) (t : XY) (kind : TxKind) (a n : Nat) : State :=
  match freeTag (getTile s t) with
  | none => s
  | some tag =>
    let s := modTile s t (fun T => { T with tx := mput T.tx tag ⟨kind, a, n, List.range (pieces a n).length, false⟩ })
    let T := getTile s t
    match kind with
    | .put _ => if T.fenced || T.fencedG then setTile s t (T.later (.put tag)) else sendTx s t tag
    | .get _ =>
      let s := setTile s t (T.laterIf (.land tag))
      if T.fencedG then modTile s t (fun T => T.later (.send tag)) else sendTx s t tag
    | _ => if T.fencedG then setTile s t (T.later (.send tag)) else sendTx s t tag

end Sys2Proof.Machine
end

