-- ==== Sys2Proof/Machine/Resets.lean ====
section
/-!
DEFINITION. What a failure sets in motion: completion of host commands (R321), failing and restarting a connection
(R291, R292), tainting a step (R147, R456), context resets (R459), a partition going out of service (R316), Carmine
capture (R462), compute and full resets (R455, R458, R460), and the forwarding of a tile's events (R445).
-/
namespace Sys2Proof.Machine

/-! ### Host commands -/

def addPortCount (s : State) (p : HPort) (i n : Nat) : State :=
  modPort s p (fun P => { P with counters := mset 0 P.counters i (mget 0 P.counters i + n) })

def HostCmd.cid (c : HostCmd) : Nat := fieldOf c.bytes 2 2
def HostCmd.ctx (c : HostCmd) : Nat := (byteAt c.bytes 4).toNat
def HostCmd.opcode (c : HostCmd) : Nat := (byteAt c.bytes 0).toNat
def HostCmd.ordered (c : HostCmd) : Bool := (byteAt c.bytes 1).getLsbD 0
def HostCmd.noCqe (c : HostCmd) : Bool := (byteAt c.bytes 1).getLsbD 1

/-- LAUNCH (Table 12.9). -/
def opLaunch : Nat := 2

def removeFirst {α : Type} (f : α → Bool) : List α → List α
  | [] => []
  | a :: r => if f a then r else a :: removeFirst f r

/-- A command of a pair, known by its number, completes: its LOAD_CONFIG waits for no section any more, it leaves the pair's outstanding commands and its completion waits to be written,
unless NO_CQE is set and the status is OK (R321). -/
def completeCmd (s : State) (port : HPort) (qp id : Nat) (status : Byte) (result : Word64) : State :=
  match mfind (portOf s port).qps qp with
  | none => s
  | some q =>
    match q.cmds.find? (fun c => c.id = id) with
    | none => s
    | some c =>
      let s := { s with loads := s.loads.filter (fun h => decide (h.cmd ≠ (port, qp, id))) }
      let q := { q with
        cmds := removeFirst (fun c => c.id = id) q.cmds
        done := if c.noCqe && status = stOk then q.done else q.done ++ [⟨c.cid, status, result, decide (c.opcode = opLaunch)⟩] }
      let s := modPort s port (fun P => { P with qps := mput P.qps qp q })
      let s := addPortCount s port 0 1
      if status = stOk then s else addPortCount s port 1 1

/-- Complete NOT_READY every outstanding command of a pair that `f` names. -/
def failPair (s : State) (port : HPort) (qp : Nat) (f : HostCmd → Bool) : State :=
  match mfind (portOf s port).qps qp with
  | none => s
  | some q => forAll (fun s (c : HostCmd) => completeCmd s port qp c.id stNotReady 0) (q.cmds.filter f) s

def failCmdsOn (s : State) (port : HPort) (f : HostCmd → Bool) : State :=
  forAll (fun s (e : Nat × QPair) => failPair s port e.1 f) (portOf s port).qps s

/-- On both ports (a context's commands may come over either). -/
def failCmds (s : State) (f : HostCmd → Bool) : State := failCmdsOn (failCmdsOn s .a f) .b f

/-! ### XDT connections -/

def getConn (s : State) (c : Nat) : Conn := mget {} s.xdt.conns c
def setConn (s : State) (c : Nat) (v : Conn) : State := { s with xdt := { s.xdt with conns := mset {} s.xdt.conns c v } }
def modConn (s : State) (c : Nat) (g : Conn → Conn) : State := setConn s c (g (getConn s c))

/-- CFG and PARTITION of a descriptor (Table 11.5). -/
def Conn.enabled (c : Conn) : Bool := (byteAt c.desc 0).getLsbD 0
def Conn.routed (c : Conn) : Bool := (byteAt c.desc 0).getLsbD 1
def Conn.autoRestart (c : Conn) : Bool := (byteAt c.desc 0).getLsbD 2
def Conn.part (c : Conn) : Nat := (byteAt c.desc 1).toNat
def Conn.remoteDev (c : Conn) : Nat := fieldOf c.desc 2 2
def Conn.pkey (c : Conn) : Nat := fieldOf c.desc 4 4
/-- WINDOW: 0 selects 512. -/
def Conn.window (c : Conn) : Nat := let w := fieldOf c.desc 32 4; if w = 0 then 512 else w

/-- The mesh transactions that a connection carries complete as error responses (R291). -/
def failRequests (s : State) (c : Nat) : State :=
  let rs := (getConn s c).requests
  let s := modConn s c (fun C => { C with requests := [] })
  forAll (fun s (e : Nat × Pkt) => respond s e.2 .error stNotReady [] false) rs s

/-- Frames and receive state discarded: PSNs from 0, timer at 64 microseconds. -/
def Conn.cleared (c : Conn) : Conn :=
  { c with
    nextPsn := 0, expPsn := 0, unacked := [], fresh := [], resend := [], buffered := [], partial_ := [], unackedRx := 0
    expiries := 0, timerUs := 64, serves := [], lastNak := none }

/-- The credit of every remote channel that the connection carries is lost (R291). -/
def loseCredits (s : State) (c : Nat) : State :=
  forAll (fun s (e : Nat × Tile) => modTile s (XY.ofKey e.1) (fun T => { T with
    qu := { T.qu with chans := mmap (fun _ ch => if ch.remote && ch.conn = c then { ch with credit := 0 } else ch) T.qu.chans } }))
    s.tiles s

/-- R291: the work of a failed or disabled connection; counted in 0x7000:09 and logged. -/
def failConn (s : State) (c : Nat) (st : ConnState) : State :=
  let s := failRequests s c
  let s := modConn s c (fun C => { C.cleared with st := st })
  let s := addTotal (loseCredits s c) 0x7000 9 1
  raise s ((blankEvent clXdt sevRecoverable meTimer acNone).atPart s (getConn s c).part) c

/-- The connection's rate at enable and restart (Table 11.6). -/
def startRate : Nat := 100000

/-- An enabled connection goes to RESTARTING with its in-flight state discarded (R292, Table 11.9). -/
def restartingConn (s : State) (c : Nat) : State :=
  let s := failRequests s c
  modConn s c (fun C => { C.cleared with st := .restarting, rate := startRate, quiet := s.clk.gtc })

/-- Every enabled connection that `f` names restarts. -/
def restartConns (s : State) (f : Conn → Bool) : State :=
  forAll (fun s (e : Nat × Conn) => if e.2.enabled && f e.2 then restartingConn s e.1 else s) s.xdt.conns s

/-! ### Context reset (R459, R460) -/

/-- Remove the packets of a context from the mesh and the complexes, held writes included; they are not counted
(R268). -/
def flushContext (s : State) (c : Nat) : State :=
  let keep := s.mesh.pkts.filter (fun e => e.2.sys || decide (e.2.ctx ≠ c))
  { s with
    mesh := { s.mesh with pkts := keep, waiting := s.mesh.waiting.filter (fun k => k.sys || decide (k.ctx ≠ c)) }
    dram := { s.dram with held := s.dram.held.filter (fun i => (mfind keep i).isSome) } }

/-- Host-window reads of a partition are abandoned; their completions will be discarded (Table 18.5 step 2). -/
def abandonReads (s : State) (p : Nat) : State :=
  let f (P : Port_) : Port_ := { P with reads := P.reads.filter (fun e => decide (e.2.req.part ≠ some p)) }
  modPort (modPort s .a f) .b f

/-- Decide a context reset: from now the partition's tiles are held, new commands complete NOT_READY, host-window
requests are abandoned, connections restart and the mesh is flushed (Table 18.5 steps 1 to 3). It joins a reset in
progress (R460). -/
def beginContextReset (s : State) (p : Nat) (rollback unbind : Bool) : State :=
  let P := getPart s p
  if s.boot.resetting.isSome then s
  else match P.resetting with
    | some r => setPart s p { P with resetting := some { r with unbind := r.unbind || unbind, rollback := r.rollback || rollback } }
    | none =>
      let s := setPart s p { P with resetting := some ⟨rollback, unbind, false, gtcMaster s, lastSeq s, none⟩ }
      let s := restartConns (abandonReads s p) (fun C => C.part = p)
      match P.ctx with
      | none => s
      | some c => flushContext { s with mesh := { s.mesh with flushing := p :: s.mesh.flushing } } c

/-- Mark the partition's current step tainted (R146, R456): 0x7880:04 counts the step once, whatever has tainted it (R154 does not say
whether a taint by parity or a migration CRC counts; DESIGN CHOICE, log entry 158); under ROLLBACK a context reset is decided
(R147, R458). -/
def taintStep (s : State) (p : Nat) : State :=
  let P := getPart s p
  if P.taint then s
  else
    let s := addTotal (setPart s p { P with taint := true }) 0x7880 4 1
    if P.cfg.policy = 0 then beginContextReset s p true false else s

/-- Taint the step of the partition whose tile consumed corrupted data; outside a partition nothing is tainted. -/
def taintAt (s : State) (t : XY) : State :=
  match partOf s t with
  | none => s
  | some p =>
    let s' := taintStep s p
    if (getPart s p).resetting.isSome then s'
    else modPart s' p (fun P => { P with resetting := P.resetting.map (fun r => { r with causeAt := some t }) })

/-- Write bytes whose parity is checked at the array boundary (R214): a wrong byte is data corruption in movement, which taints the
step of the tile's partition (R456, Table 18.2). -/
def padPut (s : State) (t : XY) (a : Nat) (l : List Byte) (bad : Option Nat) : State :=
  let s := padSend s t a l bad
  match bad with
  | none => s
  | some i => if i < l.length then taintAt s t else s

/-- Data of a read whose parity is wrong at its consumer, a load or a VLD (R214, R456): PARITY and the taint. The core goes on, since
Table 3.21 names no fault for it, and what it is given is a free value (DESIGN CHOICE, log entries 3 and 142). -/
def readParity (s : State) (t : XY) : Nat × State :=
  let v := freeVal s
  (v.1, taintAt (setEvent v.2 t evParity) t)

/-- MSI-X vector 1 of a partition's owning function (R316, R318, Table 18.5). -/
def vectorOwner (s : State) (p : Nat) : State :=
  let P := getPart s p
  vectorOne s ⟨P.port, P.fn⟩ 1

/-- A partition loses a field or a row: its context is reset, its commands complete NOT_READY, it is OUT_OF_SERVICE, and
vector 1 is raised (R316). -/
def outOfService (s : State) (p : Nat) : State :=
  let P := getPart s p
  if P.st = .free || P.st = .outOfService then s
  else
    let s := if P.ctx.isSome then beginContextReset s p false false else s
    let s := match P.ctx with
      | some c => failCmds s (fun m => m.ctx = c)
      | none => s
    let s := modPart s p (fun P => { P with st := .outOfService, launch := none })
    vectorOwner s p

/-! ### Carmine capture (R462, Table 18.6) -/

def crashBase : Nat := 1343 * 2 ^ 30
def crashSize : Nat := 0xFC20000

/-- The bytes of a list that are not 0, as memory from an address. -/
def sparseBytes : Nat → List Byte → Memory
  | _, [] => []
  | a, b :: r => if b = 0 then sparseBytes (a + 1) r else (a, b) :: sparseBytes (a + 1) r

/-- Replace the bytes of [lo, hi) of a memory by new ones that lie in it. -/
def replaceRange (m : Memory) (lo hi : Nat) (new : Memory) : Memory :=
  new.foldl (fun m c => m.setByte c.1 c.2) (m.filter (fun c => decide (c.1 < lo) || decide (hi ≤ c.1)))

/-- The block itself rewrites the DRAM offsets [lo, hi) of whole lines: what is not new is 0, and every line is good. A channel that
answers no access, of an unreachable complex too, keeps its bytes and its marks (R40, R235). -/
def rewriteDram (s : State) (lo hi : Nat) (new : Memory) : State :=
  let shut (a : Nat) : Bool := chanShut s (dramMap s (dramBase + a)).2
  let inside (a : Nat) : Bool := decide (lo ≤ a) && decide (a < hi)
  let kept := s.dram.mem.filter (fun c => inside c.1 && shut c.1)
  { s with dram := { s.dram with
    mem := kept.foldl (fun m c => m.setByte c.1 c.2) (replaceRange s.dram.mem lo hi (new.filter (fun c => !(shut c.1))))
    poison := s.dram.poison.filter (fun e => !(inside (64 * e.1)) || shut (64 * e.1))
    poisonCh := s.dram.poisonCh.filter (fun e => decide (e.1 / 448 < lo / 2 ^ 30) || decide (hi / 2 ^ 30 < e.1 / 448)
      || chanShut s (e.1 % 448 / 2)) } }

/-- The hole map of 0x2803: bit (112 y + x). -/
def holeMap (s : State) : List Byte :=
  (List.range 1568).map (fun i => BitVec.ofNat 8
    ((List.range 8).foldl (fun n j => n + 2 ^ j * b2n (isHole s (XY.ofKey (8 * i + j)))) 0))

/-- Queue descriptors, then trace records (4,608 bytes); the descriptors alone over the debug path. -/
def tileRecord (dbg : Bool) (T : Tile) : List Byte :=
  (List.range 16).flatMap (fun n => (List.range 4).flatMap (fun k => natBytes 8 ((T.getQ n).word k)))
    ++ if dbg then [] else (List.range 256).flatMap (fun n => natBytes 16 (mget 0 T.trace n).toNat)

/-- The mesh cannot carry the capture that comes next, which the spec leaves open: the field controllers take it over the debug
path (R462, log entry 3). -/
def captureDebug (s : State) : Bool := decide (Config.freeNat (s.free + 1) % 2 = 1)

/-- The logical tiles that hold anything: listed ones not in a hole. -/
def captured (s : State) : SMap Tile := s.tiles.filter (fun e => tileLive s (XY.ofKey e.1))

def captureHeader (s : State) (kind : Nat) : List Byte :=
  natBytes 8 (gtcMaster s) ++ natBytes 8 (lastSeq s) ++ [BitVec.ofNat 8 kind, BitVec.ofNat 8 (b2n (captureDebug s))]
    ++ natBytes 2 ((List.range 12544).filter (fun k => tileLive s (XY.ofKey k))).length
    ++ natBytes 4 (Config.freeNat s.free)

/-- Capture every logical tile that is not in a hole into the crash area: 16 KiB of its scratchpad, its queue descriptors and its
trace records, or, over the debug path, 4 KiB and the descriptors; a word whose check bits are bad poisons its
line there (log entry 21). A channel that answers no access keeps what it holds (R40, R235). The owners of each field at the capture are kept for 0x6011 (R468). -/
def carmine (s : State) (kind : Nat) : State :=
  let head := sparseBytes crashBase (padTo 64 (captureHeader s kind) ++ holeMap s)
  let dbg := captureDebug s
  let size := if dbg then 4096 else 16384
  let images := (captured s).flatMap (fun e =>
    (e.2.mem.filter (fun c => decide (c.1 < size))).map (fun c => (crashBase + 0x100000 + 16384 * e.1 + c.1, c.2)))
  let recs := (captured s).flatMap (fun e => sparseBytes (crashBase + 0xC500000 + 4608 * e.1) (tileRecord dbg e.2))
  let bad := (captured s).flatMap (fun e => (e.2.ecc.filter (fun w => decide (w.1 < size / 8) && decide (w.2 = .bad))).map
    (fun w => (crashBase + 0x100000 + 16384 * e.1) / 64 + w.1 / 8))
  let own := (List.range 49).filterMap (fun f => (partOfField s f).map (fun p => (f, ⟨(getPart s p).port, (getPart s p).fn⟩)))
  let bad := bad.filter (fun l => !(chanShut s (dramMap s (dramBase + 64 * l)).2))
  let s := rewriteDram s crashBase (crashBase + crashSize) (head ++ images ++ recs)
  { s with
    free := s.free + 2
    dram := { s.dram with poison := bad.foldl (fun m l => mput m l true) s.dram.poison }
    boot := { s.boot with captured := own } }

/-! ### Compute and full resets (R455, R458, R460) -/

/-- The mesh is emptied; BAR2 reads in it end (Table 2.15, routers). -/
def emptyMesh (s : State) : State :=
  let f (s : State) (p : HPort) : State :=
    let P := portOf s p
    let s := setPort s p { P with bar2 := [], reads := [] }
    forAll (fun s (e : Nat × (Fn × Nat)) => emit s (.bar2Abort e.2.1 e.2.2)) P.bar2 s
  let s := f (f s .a) .b
  { s with mesh := { s.mesh with pkts := [], flushing := [], waiting := [] }, dram := { s.dram with held := [] } }

/-- Completions that have not been written never leave as they stand: their commands complete NOT_READY (R455, Table
12.11, log entry 15). -/
def voidDone (P : Port_) : Port_ :=
  { P with qps := mmap (fun _ q => { q with done := q.done.map (fun d => { d with status := stNotReady, result := 0 }) }) P.qps }

/-- A compute reset begins: it joins one in progress (R460); otherwise tiles stop, Carmine captures, the mesh empties,
the complexes enter self-refresh and outstanding commands complete NOT_READY (Tables 16.4 and 12.11). -/
def beginCompute (s : State) : State :=
  if s.boot.resetting.isSome || s.boot.st = .booting || s.boot.st = .failed then s
  else
    let s := { s with boot := { s.boot with
      st := .computeReset, resetting := some .compute, decidedAt := gtcMaster s, cause := lastSeq s
      computeAt := s.clk.gtc :: s.boot.computeAt } }
    let s := emptyMesh (carmine s 2)
    let s := modPort (modPort s .a voidDone) .b voidDone
    failCmds { s with dram := { s.dram with selfRefresh := true } } (fun _ => true)

/-- The functions of a port are reset and its queue pairs deleted, as PERST# does (R327, R328): outstanding commands
are discarded without completion, HC_APERTURE and the host-window regions are cleared, and host-window requests
complete with error responses. -/
def resetPort (s : State) (p : HPort) : State :=
  let P := portOf s p
  let s := setPort s p { P with
    vfs := 0, fns := [], qps := [], regions := [], reads := [], flushes := [], bar2 := [], spdm := false }
  let s := { s with loads := s.loads.filter (fun h => decide (h.cmd.1 ≠ p)) }
  let s := forAll (fun s (e : Nat × HostRead) => respond s e.2.req .error stNotReady [] false) P.reads s
  let gone (e : Endpoint) : Bool := match e with
    | .mailbox f => decide (f.port = p)
    | .mctp q _ => decide (q = p)
    | _ => false
  { s with aceel := { s.aceel with
    snaps := s.aceel.snaps.filter (fun x => !(gone x.1))
    stages := s.aceel.stages.filter (fun x => !(gone x.1))
    subs := s.aceel.subs.filter (fun x => !(gone x.ep))
    waiting := s.aceel.waiting.filter (fun w => !(gone w.req.ep)) } }

/-- A port's link goes down; 0x6800 counts it. -/
def linkDown (s : State) (p : HPort) : State :=
  if (portOf s p).linkUp then
    addPortCount (modPort s p (fun P => { P with linkUp := false, gen := 0, width := 0 })) p 7 1
  else s

/-- Decide a full reset (R458, Table 16.5): from a compute reset it goes on without a second capture; after the loss of
both references it takes none (R461). -/
def decideFull (s : State) : State :=
  if s.boot.resetting = some .full || s.boot.st = .booting || s.boot.st = .failed then s
  else
    let s := if s.boot.resetting = some .compute || s.clk.lost then s else carmine s 3
    let s := { s with boot := { s.boot with
      st := .fullPending, resetting := some .full, decidedAt := gtcMaster s, cause := lastSeq s, silent := true } }
    let s := emptyMesh s
    let s := resetPort (linkDown s .a) .a
    let s := resetPort (linkDown s .b) .b
    { s with
      dram := { s.dram with selfRefresh := true }
      xdt := { s.xdt with eths := mmap (fun _ e => { e with up := false, anDone := false, fec := false, lanes := 0 }) s.xdt.eths }
      aceel := { snaps := [], stages := [], subs := [], answered := [], waiting := [] } }

/-- Four compute resets within 10 minutes (R461). -/
def fourthCompute (s : State) : Bool :=
  decide (4 ≤ (s.boot.computeAt.filter (fun g => decide (s.clk.gtc < g + 600000000000))).length)

/-- Decide a compute reset; the fourth within 10 minutes becomes a full reset (R461). -/
def decideCompute (s : State) : State :=
  if s.boot.resetting.isSome then s
  else
    let s := beginCompute s
    if s.boot.resetting = some .compute && fourthCompute s then decideFull s else s

/-! ### Forwarding of tile events (R445, R266, R202) -/

/-- What a corruption has set in motion at a tile: its step is tainted, or nothing, where the tile is in no partition (R456). -/
def taintAction (s : State) (t : XY) : Nat := if (partOf s t).isSome then acTaint else acNone

/-- The class that a TC_EVENT bit, or a name of PARITY, raises at a tile, with severity, mechanism and action (Table 18.2). -/
def eventClass (s : State) (t : XY) (b : Nat) : Option (Nat × Nat × Nat × Nat) :=
  match b with
  | 0 => some (clDataMove, sevRecoverable, meParity, taintAction s t)
  | 1 => some (clSramCe, sevCorrected, meEcc, acNone)
  | 2 => some (clSramUe, sevFatal, meEcc, acCompute)
  | 3 => some (clIndigo, sevRecoverable, meIndigo, taintAction s t)
  | 4 => some (clOverflow, sevInfo, meMonitor, acNone)
  | 7 => some (clTileFault, sevRecoverable, meMonitor, acNone)
  | 10 => some (clThermal, sevInfo, meMonitor, acNone)
  | 11 => some (clDroop, sevInfo, meMonitor, acNone)
  | 14 => some (clControlLane, sevRecoverable, meParity, if (partOf s t).isSome then acContext else acNone)
  | 15 => some (clSiteFailed, sevRecoverable, meCrc, taintAction s t)
  | _ => none

/-- The place that a class's rate limit counts by: the site, the block or the tile. -/
def eventPlace (s : State) (t : XY) (b : Nat) : Nat :=
  if b = evDroop then (siteOf s t).block else if b = evOverflow then t.key else (siteOf s t).key

/-- ADDR of the event that a bit raises: the word of a scratchpad error, as a device address (R219, Table 18.3). -/
def eventAddr (t : XY) (T : Tile) (b : Nat) : Nat :=
  let at_ (w : Nat) : Nat := t.y * 2 ^ 29 + t.x * 2 ^ 22 + 8 * w
  if b = evEccCe then at_ T.ceWord else if b = evEccUe then at_ T.ueWord else 0

/-- The name under which a bit waits to be forwarded: PARITY has three, of which the oldest comes first. -/
def Tile.raisedAs (T : Tile) (b : Nat) : Nat :=
  if b = evParity then (T.raised.find? (fun h => decide (h = evParity) || isAlias h)).getD evParity else b

/-- The bit that a name of it stands for. -/
def eventBit (h : Nat) : Nat := if isAlias h then evParity else h

/-- The name h of a bit has been forwarded: the bit is cleared once no name of it waits any more. -/
def Tile.forwarded (T : Tile) (h : Nat) : Tile :=
  let l := T.raised.erase h
  { T with raised := l, event := if l.any (fun x => decide (eventBit x = eventBit h)) then T.event else T.event &&& ~~~(1#14 <<< eventBit h) }

/-- The last-stall record 0x2805 (Table 9.18). -/
def stallRecord (s : State) (t : XY) (T : Tile) : List Byte :=
  let c := mget {} T.qu.chans T.qu.stalled.toNat
  natBytes 8 (gtcOf s t.field) ++ [BitVec.ofNat 8 t.x, BitVec.ofNat 8 t.y, BitVec.ofNat 8 T.qu.stalled.toNat,
    BitVec.ofNat 8 c.queue.toNat, BitVec.ofNat 8 c.dst.x, BitVec.ofNat 8 c.dst.y, 0, 0]

/-- The last-deviation record 0x2404 (Table 7.11). -/
def deviationRecord (s : State) (t : XY) (T : Tile) : List Byte :=
  natBytes 8 (gtcOf s t.field) ++ [BitVec.ofNat 8 t.x, BitVec.ofNat 8 t.y, BitVec.ofNat 8 T.active.toNat, 0]
    ++ natBytes 4 T.balStall.toNat

/-- A deviation event is recorded at most once per tile per millisecond (R202). -/
def deviationDue (s : State) (t : XY) : Bool :=
  match mfind s.events.lastLogged (4294967296 * clDeviation + t.key) with
  | none => true
  | some g => decide (g + 1000000 ≤ s.clk.gtc)

def recordDeviation (s : State) (t : XY) (T : Tile) : State :=
  if deviationDue s t then
    let s := addTotal s 0x2400 2 1
    let s := match partOf s t with
      | none => s
      | some p => modPart s p (fun P =>
          { P with deviations := P.deviations + 1, lastDev := deviationRecord s t T })
    let s := raise s ((blankEvent clDeviation sevInfo meMonitor acNone).atTile s t) t.key
    { s with events := { s.events with
      lastLogged := mput s.events.lastLogged (4294967296 * clDeviation + t.key) s.clk.gtc } }
  else s

def recordStall (s : State) (t : XY) (T : Tile) : State :=
  let s := addTotal s 0x2800 3 1
  let s := match partOf s t with
    | none => s
    | some p => modPart s p (fun P => { P with lastStall := stallRecord s t T })
  raise s ((blankEvent clSendStall sevInfo meTimer acNone).atTile s t) t.key

/-- The event just raised at a tile is the cause of the rollback that its corruption has decided (0x6000:07). -/
def nameCause (s : State) (t : XY) : State :=
  match partOf s t with
  | none => s
  | some p => modPart s p (fun P => { P with resetting := P.resetting.map (fun r =>
      if r.causeAt = some t then { r with cause := lastSeq s, causeAt := none } else r) })

/-- What the raising of a class at a tile sets in motion beside its record: it names the cause of a rollback, and a control lane's
context-resets its partition (R457). -/
def afterRaise (s : State) (t : XY) (c : Nat) : State :=
  if c = clDataMove ∨ c = clIndigo ∨ c = clSiteFailed then nameCause s t
  else if c = clControlLane then
    match partOf s t with
    | none => s
    | some p => beginContextReset s p true false
  else s

/-- An event that was forwarded when its TC_EVENT bit was set enabled (R70) reaches the field controller, which raises it and
clears the bit; CFG_REFUSED, CTRL_REFUSED, HALTED and SW_EVT raise nothing (R445). True for an uncorrectable word. -/
def raiseEvent (s : State) (t : XY) (bit : Nat) : State × Bool :=
  let T := getTile s t
  let b := T.raisedAs bit
  if T.raised.contains b then
    let s := setTile s t (T.forwarded b)
    if b = evSendStall then (recordStall s t T, false)
    else if b = evBalStall then (recordDeviation s t T, false)
    else match eventClass s t b with
      | none => (s, false)
      | some (c, sv, me, ac) =>
        let s := raise s { ((blankEvent c sv me ac).atTile s t) with addr := eventAddr t T b } (eventPlace s t b)
        (afterRaise s t c, decide (b = evEccUe))
  else (s, false)

/-- The raising of an uncorrectable word decides a compute reset (R455). -/
def forwardEvent (s : State) (t : XY) (bit : Nat) : State :=
  let x := raiseEvent s t bit
  if x.2 then decideCompute x.1 else x.1

/-- Every event under way reaches the field controller, in the order of raising; while the controller hangs, none does (R453). -/
def forwardAll (s : State) (t : XY) : State :=
  if (getField s t.field).hung then s else forAll (fun s b => forwardEvent s t (eventBit b)) (getTile s t).raised s

/-- The zeroise of a tile whose clock runs has had its cycles by the time that its command is answered (R314, R316, R317, R344); a
tile whose CCLK is stopped goes on zeroising. -/
def zeroedTile (s : State) (t : XY) : State := if zeroClock s t then modTile s t Tile.endZero else s

/-- Every tile of a partition begins to zeroise (Table 18.5, step 4). -/
def zeroPart (s : State) (p : Nat) : State := forAll (fun s t => modTile s t Tile.beginZero) (partTiles s (getPart s p)) s

/-! ### Tiles after a reset (Table 2.15) -/

/-- The generator and the sampler are reseeded (R62, R143). -/
def reseed (s : State) (t : XY) (T : Tile) : Tile :=
  let g := gtcOf s t.field
  let T := T.seedDiscard (BitVec.ofNat 32 g) (BitVec.ofNat 32 (g / 2 ^ 32)) (Config.serial.setWidth 32)
    (BitVec.ofNat 32 (t.y <<< 16 ||| t.x))
  let q : Half := BitVec.ofNat 16 (g % 65536 ^^^ tcId s t % 65536)
  { T with mat := { T.mat with
      lfsr := if q = 0 then 1 else q, epO := 0, epS := 1, epM := 0, wideNext := false } }

/-- What a reset leaves of a tile at once: nothing, but the events that wait for a controller that hangs (R453), and of a context
reset the activity counters; a zeroise that its clock has not let end goes on. -/
def Tile.kept (T : Tile) (hung act : Bool) : Tile :=
  let T0 : Tile := if act then { act := T.act, actSeen := T.actSeen } else {}
  { T0 with zeroising := T.zeroising, event := if hung then T.event else 0, raised := if hung then T.raised else [] }

/-- A tile after a reset: events forwarded, then everything of Table 2.15 at its reset value; a context reset keeps the
activity counters. -/
def resetTile (keepAct : Bool) (s : State) (t : XY) : State :=
  let s := forwardAll s t
  let T := getTile s t
  let T0 := T.kept (getField s t.field).hung keepAct
  dropWaiting (setTile s t (reseed s t T0)) (fun k => decide (k.dst = t))

end Sys2Proof.Machine
end

