-- ==== Sys2Proof/Machine/Cloak.lean ====
section
/-!
DEFINITION. Cloak (R438 to R441): what a failing site does to its row, to the tiles and to the partition; the measurement
log (R412); maximum frequencies and trims (R370, R371).
-/
namespace Sys2Proof.Machine

/-! ### Measurements (R412) -/

/-- Add a record. When the 256 are full, a new one overwrites the oldest after the first four. -/
def addMeasure (s : State) (ix : Nat) (v : BitVec 512) : State :=
  let c := s.sec
  let r := (gtcMaster s, ix, v)
  if c.log.length < 256 then { s with sec := { c with log := c.log ++ [r], written := c.written + 1 } }
  else { s with sec := { c with
    log := c.log.set (4 + c.overwritten % 252) r, written := c.written + 1, overwritten := c.overwritten + 1 } }

/-- What index 3 measures: cloaked and bin-cloaked sites, broken rows and dead fields, sorted. -/
def cloakList (s : State) : List Byte :=
  (List.range 49).flatMap (fun f =>
    if !(fieldAlive s f) then [BitVec.ofNat 8 f, 0xFF, 0xFF, 4]
    else (List.range 16).flatMap (fun r =>
      let w := getRow s f r
      let at_ (pc kind : Nat) : List Byte := [BitVec.ofNat 8 f, BitVec.ofNat 8 r, BitVec.ofNat 8 pc, BitVec.ofNat 8 kind]
      match w.kind with
      | .spare => []
      | .cloaked => at_ w.e 1
      | .binCloaked => at_ w.e 2
      | .broken => at_ 0x1F 3))

/-- The record of index 3. -/
def recordCloak (s : State) : State :=
  addMeasure { s with sec := { s.sec with cloakSeen := cloakList s } } 3 (Config.sha3 (cloakList s))

/-- A further record where index 3 has changed since its last one; a boot closes its own records at step 9 (R412). -/
def measureCloak (s : State) : State :=
  if s.boot.st = .booting || decide (cloakList s = s.sec.cloakSeen) then s else recordCloak s

/-! ### Maximum frequencies and trims (R370, R371) -/

/-- CCLK of an operating point, in units of 12.5 MHz (Table 14.3). -/
def cclkUnits : Nat → Nat
  | 0 => 240
  | 1 => 200
  | 2 => 180
  | 3 => 160
  | _ => 120

/-- fmax of a site at index 3 point + trim, as 0x4003 shows it: the value measured last, or 0.97 times the factory value
(rounded down, log entry 32), marked guarded in bit 15 (R370). -/
def fmaxWord (s : State) (a : SiteId) (i : Nat) : Half :=
  match mfind (getSite s a).fmax i with
  | some v => v
  | none => BitVec.ofNat 16 (0x8000 + 97 * (Config.factoryFmax a.key i).toNat / 100)

def fmaxUnits (s : State) (a : SiteId) (i : Nat) : Nat := (fmaxWord s a i).toNat % 4096

/-- Record measured values; a measured value is not guarded. -/
def measureFmax (s : State) (a : SiteId) (l : List (Nat × Nat)) : State :=
  setSite s a (l.foldl (fun t (x : Nat × Nat) => { t with fmax := mput t.fmax x.1 (BitVec.ofNat 16 (x.2 % 4096)) })
    (getSite s a))

/-- The sites of a field that hold logical tiles or come back to hold one as the walk moves on: every site but a cloaked or
bin-cloaked one (R371; the worked example of R372 raises the trim while the site is still the spare, log entry 116). -/
def inUse (s : State) (f : Nat) : List SiteId :=
  (List.range 16).flatMap (fun r =>
    let w := getRow s f r
    if w.kind = .broken then []
    else ((List.range 17).filter (fun pc => decide (w.kind = .spare) || decide (pc ≠ w.e))).map (fun pc => ⟨f, r, pc⟩))

/-- Of measured values (index, value) those that a visit's sweep can reach: whose voltage does not exceed the rail (R433). -/
def underRail (s : State) (f : Nat) (l : List (Nat × Nat)) : List (Nat × Nat) :=
  l.filter (fun x => decide (nominalMv (x.1 / 3) + 10 * (x.1 % 3) ≤ railMv s f))

/-- The smallest trim index at which every in-use site of the field meets the point (R371). -/
def trimFor (s : State) (f pt : Nat) : Option Nat :=
  [0, 1, 2].find? (fun k => (inUse s f).all (fun a => decide (cclkUnits pt ≤ fmaxUnits s a (3 * pt + k))))

/-- Firmware sets the trims of a field (R371); a point that no trim meets keeps its trim. -/
def setTrims (s : State) (f : Nat) : State :=
  forAll (fun s pt => match trimFor s f pt with
    | some k => modField s f (fun d => { d with trim := mset 0 d.trim pt (BitVec.ofNat 8 (10 * k)) })
    | none => s) [0, 1, 2, 3, 4] s

/-! ### A failing site -/

/-- What becomes of the row: nothing changes; the site waits for the end of a visit (R435); the excluded site is lost
(R440); the site becomes the excluded one (R439); the row breaks (R441). -/
inductive Loss where
  | none
  | waits
  | spareLost
  | shifted
  | broke
deriving DecidableEq, Repr

def lossOf (s : State) (a : SiteId) : Loss :=
  let w := getRow s a.field a.row
  if !(fieldAlive s a.field) then .none
  else match w.kind with
    | .broken => .none
    | .spare => if a.pc = w.e then .spareLost else if w.visit then .waits else .shifted
    | _ => if a.pc = w.e then .none else .broke

/-- The row after the loss; the walk acts on spare rows only, so no step of another stays due (R426). -/
def Row.lose (w : Row) (pc : Nat) : Loss → Row
  | .none => w
  | .waits => { w with waiting := if w.waiting.contains pc then w.waiting else w.waiting ++ [pc] }
  | .spareLost => { w with kind := .cloaked, due := [] }
  | .shifted => { w with kind := .cloaked, e := pc, due := [] }
  | .broke => { w with kind := .broken, visit := false, due := [] }

/-- A failing site is recorded with its cause, once (R438). -/
def recordDefect (s : State) (a : SiteId) (cause : Byte) : State :=
  let t := getSite s a
  setSite s a { t with failed := some (t.failed.getD cause), unproven := false }

def rowTiles (f r : Nat) : List XY := (List.range 16).map (fun i => ⟨16 * (f % 7) + i, 16 * (f / 7) + r⟩)

/-- The partition that uses the row rolls back (R439, R440); a row that no context uses only has its tiles reset. -/
def rollbackRow (s : State) (a : SiteId) : State :=
  let here := forAll (fun s t => resetTile true (modTile s t Tile.beginZero) t) (rowTiles a.field a.row) s
  match partOfField s a.field with
  | none => here
  | some p => if (getPart s p).ctx.isSome then beginContextReset s p true false else here

/-- A site is cloaked: 0x5000:06 counts it, and 0x7880:06 a site that Indigo found (R148, R154, saturating). -/
def countCloak (s : State) (a : SiteId) : State :=
  let s := addTotal s 0x5000 6 1
  if (getSite s a).failed = some 3 then setTotal s 0x7880 6 (Nat.min 0xFFFFFFFF (total s 0x7880 6 + 1)) else s

/-- What the loss sets in motion (R439 to R441): the row, the counts, the trims of the field (R371), the measurement of index
3, and the rollback or the partition's going out of service. A site whose row breaks is not cloaked, so no count of cloaked
sites rises (DEDUCED, log entry 135). -/
def loseSite (s : State) (a : SiteId) (l : Loss) : State :=
  let s := setRow s a.field a.row ((getRow s a.field a.row).lose a.pc l)
  let s := if l = .shifted || l = .spareLost then setTrims (countCloak s a) a.field else s
  match l with
  | .none => s
  | .waits => s
  | .spareLost => rollbackRow (measureCloak s) a
  | .shifted => rollbackRow (measureCloak s) a
  | .broke =>
    let s := measureCloak s
    match partOfField s a.field with
    | none => s
    | some p => outOfService s p

/-- A site fails in service (R438 to R441, R435): the defect map, class 0x0A, and the loss; a site that is failing already has
been dealt with, or waits for the end of a visit, and the sites of a broken row are clock-stopped (R441). `cause` is that of Table 17.8, `mech` that of Table 18.3. -/
def siteFails (s : State) (a : SiteId) (cause : Byte) (mech : Nat) (ochre : Nat) : State :=
  if (getSite s a).failed.isSome || decide ((getRow s a.field a.row).kind = .broken) then s
  else
    let l := lossOf s a
    let s := recordDefect s a cause
    let act := if l = .broke then acOutOfService else if l = .none then acNone else acCloak
    let s := raise s { ((blankEvent clSiteFailed sevRecoverable mech act).atSite s a) with ochre := ochre } a.key
    loseSite s a l

end Sys2Proof.Machine
end

