-- ==== Sys2Proof/Machine/Matrix.lean ====
section
/-!
DEFINITION. The matrix engine: its command queue (R46, R93 to R96), exact block accumulation (R131 to R139), the drain
(R140, R141, R121, R124) and the Indigo check (R142 to R152).
-/
namespace Sys2Proof.Machine

def modMat (s : State) (t : XY) (g : Matrix → Matrix) : State := modTile s t (fun T => { T with mat := g T.mat })

/-! ### Banks and passes -/

def Matrix.bank (m : Matrix) (b : Bool) : SMap Word32 := if b then m.a1 else m.a0
def Matrix.setBank (m : Matrix) (b : Bool) (v : SMap Word32) : Matrix :=
  if b then { m with a1 := v } else { m with a0 := v }
def Matrix.pass (m : Matrix) (b : Bool) : Option Pass := if b then m.pass1 else m.pass0
def Matrix.setPass (m : Matrix) (b : Bool) (v : Option Pass) : Matrix :=
  if b then { m with pass1 := v } else { m with pass0 := v }

def bankCode (m : SMap Word32) (n : Nat) : Nat := (mget 0 m n).toNat
/-- A bank from its 4,096 codes; zeros are not listed. -/
def bankOf (l : List Nat) : SMap Word32 :=
  (List.zipWith (fun n c => (n, BitVec.ofNat 32 c)) (List.range 4096) l).filter (fun p => decide (p.2 ≠ 0))

/-- Output number of position q of sub-block n: i = 8(n div 8) + q div 8, j = 8(n mod 8) + q mod 8 (R142). -/
def subOutput (n q : Nat) : Nat := 64 * (8 * (n / 8) + q / 8) + (8 * (n % 8) + q % 8)
def subCodes (m : SMap Word32) (n : Nat) : List Nat := (List.range 64).map (fun q => bankCode m (subOutput n q))

/-! ### Formats of the engine -/

/-- The pairings of R94. -/
def pairingOk (a b : FmtCode) : Bool :=
  (decide (a = b) && decide (a.toNat ≤ 0x0C))
  || ((decide (a = 3) || decide (a = 4)) && (decide (b = 3) || decide (b = 4)))
  || ((decide (a = 5) || decide (a = 6)) && (decide (b = 5) || decide (b = 6)))

def fmtD (c : FmtCode) : Fmt := (fmtOf c).getD default

/-- Bytes of the element region of 64 × K elements, and of the whole operand tile with its scales and tile word
(R120). -/
def elemBytes (f : Fmt) (k : Nat) : Nat := 8 * k * f.width
def operandBytes (f : Fmt) (k : Nat) : Nat :=
  elemBytes f k + (if f.blocked then 64 * (k / f.block) else 0) + (if f.isX then 4 else 0)

/-- Cycles of the K-steps of an MMA (Table 5.1): XT2 takes two K-steps in a cycle. -/
def kCycles (c : FmtCode) (k : Nat) : Nat :=
  match c.toNat with
  | 0x00 => 16 * k
  | 0x01 => 4 * k
  | 0x02 => 4 * k
  | 0x07 => k
  | 0x09 => k
  | 0x0A => k
  | 0x0C => ceilDiv k 2
  | _ => 2 * k

/-- Code of element (i, k) of an operand tile that `view` reads (R120). -/
def operandElem (view : Nat → Byte) (off : Nat) (f : Fmt) (i k : Nat) : Nat :=
  let j := k / f.block
  let pos := f.width * (i * f.block + (k - j * f.block))
  let base := off + j * (8 * f.block * f.width) + pos / 8
  leNat ((List.range (ceilDiv (pos % 8 + f.width) 8)).map (fun q => view (base + q))) >>> (pos % 8) % 2 ^ f.width

/-- Scale code of block (i, j). -/
def operandScale (view : Nat → Byte) (off : Nat) (f : Fmt) (k i j : Nat) : Nat :=
  (view (off + elemBytes f k + 64 * j + i)).toNat

/-- An operand value as the engine takes it: an infinity is a NaN (R127). -/
def Val.engine : Val → Option Dy
  | .fin d => some d
  | _ => none

/-! ### What the queue holds, in program order -/

/-- Designation, configuration, staged B, the open passes and the exact and wide alternation, after the queued commands
have taken effect: a pass is represented by whether it is wide. -/
structure MatView where
  fill : Bool
  fmtA : FmtCode
  fmtB : FmtCode
  tag : Byte
  staged : Option (Nat × Word32)
  p0 : Option Bool
  p1 : Option Bool
  wideNext : Bool
deriving DecidableEq, Repr

def MatView.pass (v : MatView) (b : Bool) : Option Bool := if b then v.p1 else v.p0
def MatView.setPass (v : MatView) (b : Bool) (p : Option Bool) : MatView :=
  if b then { v with p1 := p } else { v with p0 := p }

/-- R149: the three conditions. -/
def wideEligible (s : State) (T : Tile) (fmtA : FmtCode) (tag : Byte) : Bool :=
  T.activeSlot.wide && s.wideTags.getLsbD tag.toNat && decide (3 ≤ fmtA.toNat) && decide (fmtA.toNat ≤ 0x0C)

/-- An MMA is added: whether it begins a pass, and so whether its pass is wide. -/
def MatView.addMma (s : State) (T : Tile) (v : MatView) (b z : Bool) : MatView :=
  if z || (v.pass b).isNone then
    let el := wideEligible s T v.fmtA v.tag
    { (v.setPass b (some (el && v.wideNext))) with wideNext := if el then !v.wideNext else v.wideNext }
  else v

def MatView.after (s : State) (T : Tile) (v : MatView) : MatCmd → MatView
  | .cfg a b g => { v with fmtA := a, fmtB := b, tag := g }
  | .stage o x => { v with staged := some (o, x) }
  | .mma b _ _ _ z _ => v.addMma s T b z
  | .swap => { v with fill := !v.fill }

def matView (s : State) (T : Tile) : MatView :=
  let m := T.mat
  m.queue.foldl (MatView.after s T)
    ⟨m.fill, m.fmtA, m.fmtB, m.tag, m.staged, m.pass0.map (·.wide), m.pass1.map (·.wide), m.wideNext⟩

def MatCmd.isMma : MatCmd → Bool
  | .mma _ _ _ _ _ _ => true
  | _ => false

def MatCmd.targets (b : Bool) : MatCmd → Bool
  | .mma b' _ _ _ _ _ => b == b'
  | _ => false

/-- The bank awaits a result: an MMA queued or running against it, or a load of it (R47, R93). -/
def bankAwaits (m : Matrix) (b : Bool) : Bool :=
  m.queue.any (MatCmd.targets b) || (match m.running with
    | some r => r.bank == b
    | none => false) || m.accLoad.any (fun x => x.1 == b)

/-- Entries of the matrix command queue in use, of 4 (R46): an MMA, an MDRAIN and a load of a bank keep theirs until
they complete. -/
def matFull (m : Matrix) : Bool :=
  decide (4 ≤ m.queue.length + b2n m.running.isSome + m.drain.length + m.accLoad.length)

/-- The matrix engine holds nothing (Table 2.2, CSW). -/
def matEmpty (m : Matrix) : Bool :=
  m.queue.isEmpty && m.running.isNone && m.drain.isEmpty && m.accLoad.isEmpty

/-- A queued MMA with Z = 1 will end an open pass. -/
def endsPass (s : State) (T : Tile) : MatView → List MatCmd → Bool
  | _, [] => false
  | v, c :: r => (match c with
    | .mma b _ _ _ z _ => z && (v.pass b).isSome
    | _ => false) || endsPass s T (v.after s T c) r
/-- A pass that has ended has not completed its compare, or a queued command will end one: a STEP waits for that compare (R145). -/
def comparePending (s : State) (T : Tile) : Bool :=
  let m := T.mat
  m.drain.any (fun x => x.ends)
    || endsPass s T ⟨m.fill, m.fmtA, m.fmtB, m.tag, m.staged, m.pass0.map (·.wide), m.pass1.map (·.wide), m.wideNext⟩ m.queue

/-! ### The end of a pass (R145, R146, R148, R152) -/

/-- An Indigo mismatch (R146), and the cloaking of a site with two within 1 s (R148). A second mismatch whose site breaks its row
(R441) is not counted among the cloaked (DEDUCED, log entry 135). -/
def mismatch (s : State) (t : XY) : State :=
  let a := siteOf s t
  let x := getSite s a
  let now := gtcOf s t.field
  let s := setSite s a { x with indigo := satAdd32 x.indigo 1, lastMismatch := some now }
  let s := taintAt (setEvent (addTotal s 0x7880 3 1) t evIndigo) t
  match x.lastMismatch with
  | none => s
  | some g => if now ≤ g + 1000000000 then siteFails s a 3 meIndigo 0 else s

/-- The bin of a relative error (Table 5.3). -/
def wideBin (c r : Nat) : Nat :=
  match xaDec c, xaDec r with
  | some x, some y =>
    let d := x.add y.flip
    if d.m = 0 then 0
    else if y.m = 0 then 15
    else
      let n := d.num * y.den
      let m := y.num * d.den
      ((List.range 14).map (· + 1)).find? (fun b => n * 2 ^ (17 - b) < m) |>.getD 15
  | _, _ => 15

def addHist (s : State) (tag bin : Nat) : State :=
  { s with hist := mset 0 s.hist (16 * tag + bin) (mget 0 s.hist (16 * tag + bin) + 1) }

/-- The compare at a pass end; true on a mismatch. A wide pass only adds to its tag's histogram. -/
def comparePass (s : State) (t : XY) (b : Bool) : State × Bool :=
  let m := (getTile s t).mat
  match m.pass b with
  | none => (s, false)
  | some p =>
    let s := modMat s t (fun m => m.setPass b none)
    let have_ := subCodes (m.bank b) p.sub
    let want := p.shadow.map (·.toNat)
    if p.wide then
      (forAll (fun s (e : Nat × Nat) => addHist s p.tag.toNat (wideBin e.1 e.2)) (List.zip have_ want)
        (addTotal s 0x7880 2 1), false)
    else
      (addTotal s 0x7880 1 1, decide (have_ ≠ want))

/-- A pass end without an MDRAIN: a mismatch acts at once. -/
def endPass (s : State) (t : XY) (b : Bool) : State :=
  let r := comparePass s t b
  if r.2 then mismatch r.1 t else r.1

/-! ### The start of a pass (R142, R149) -/

/-- One step of the sampler's LFSR. -/
def lfsrStep (q : Half) : Half :=
  let f := (q ^^^ (q >>> 2) ^^^ (q >>> 3) ^^^ (q >>> 5)) &&& 1
  (q >>> 1) ||| (f <<< 15)
def lfsrSteps : Nat → Half → Half
  | 0, q => q
  | n + 1, q => lfsrSteps n (lfsrStep q)

/-- The sub-block of the next exact pass; a new epoch reads the state before it advances. -/
def Matrix.sample (m : Matrix) : Matrix × Nat :=
  let m := if m.epM = 0 then
      { m with
        epO := bits m.lfsr.toNat 5 0
        epS := 2 * bits m.lfsr.toNat 10 6 + 1
        lfsr := lfsrSteps 16 m.lfsr }
    else m
  let n := (m.epO + m.epS * m.epM) % 64
  ({ m with epM := (m.epM + 1) % 64, lastSub := n }, n)

/-- Open a pass of a bank: exact or wide, its sub-block, and the shadow's copy of the bank. -/
def Matrix.openPass (m : Matrix) (b el : Bool) : Matrix :=
  let wide := el && m.wideNext
  let r := if wide then (m, m.lastSub) else m.sample
  let m := r.1
  let p : Pass := ⟨wide, r.2, m.tag, (subCodes (m.bank b) r.2).map (BitVec.ofNat 32 ·)⟩
  { (m.setPass b (some p)) with wideNext := if el then !m.wideNext else m.wideNext }

/-! ### Instructions (Table 3.13) -/

/-- Issue of a matrix instruction: its faults, then the holds of `hold`, then its effect. -/
def issueM (s : State) (t : XY) (regs : List Reg) (good : Bool) (fault : Tile → Bool) (hold : Tile → Bool)
    (act : Tile → State) : Out :=
  issue s t 2 regs good noHold (fun T =>
    if fault T then faultCore s t evAddrFault else if hold T then waitCore s t else act T)

def Tile.pushMat (T : Tile) (c : MatCmd) : Tile := { T with mat := { T.mat with queue := T.mat.queue ++ [c] } }

/-- MCFG: judged at issue; a refused pairing leaves the configuration as it is (R94). -/
def execMcfg (t : XY) (d : Reg) (fmtA fmtB : FmtCode) (tag : Byte) (s : State) : Out :=
  issueM s t [d] true (fun _ => false) (fun T => matFull T.mat) (fun T =>
    let v := matView s T
    let ok := pairingOk fmtA fmtB
    let c : MatCmd := if ok then .cfg fmtA fmtB tag else .cfg v.fmtA v.fmtB v.tag
    setTile s t (((T.setG d (status64 (if ok then stOk else stRange))).pushMat c).retire 2))

/-- MSWAP (R93). -/
def execMswap (t : XY) (s : State) : Out :=
  issueM s t [] true (fun _ => false) (fun T => matFull T.mat) (fun T => setTile s t ((T.pushMat .swap).retire 2))

/-- 256-byte aligned, and inside the scratchpad (R95). -/
def wideOk (a n : Nat) : Bool := decide (a % 256 = 0) && inPad a n

/-- MLDB: ACC = 0 queues the staging of B (R132); ACC = 1 ends the drain bank's pass and loads the bank (R141, R145). -/
def execMldb (t : XY) (sa : Got) (sb : Reg) (acc : Bool) (s : State) : Out :=
  issueM s t [sa.reg, sb] true (fun T => acc && !(wideOk (T.getG sa.reg).toNat 16384))
    (fun T => matFull T.mat || (acc && (T.zeroising || bankAwaits T.mat (!(matView s T).fill))))
    (fun T =>
      if acc then
        let b := !(matView s T).fill
        let s := endPass s t b
        modTile s t (fun T =>
          { (T.laterIf .acc) with mat := { T.mat with accLoad := T.mat.accLoad ++ [(b, (T.getG sa.reg).toNat, sa.par)] } }.retire 2)
      else setTile s t ((T.pushMat (.stage (T.getG sa.reg).toNat (fp32Of (T.getG sb)))).retire 2))

/-- The reference region of a wide pass: from the first 256-byte boundary after A's operand tile, 128 K bytes (R150). -/
def refStart (f : Fmt) (aOff k : Nat) : Nat := 256 * ceilDiv (aOff + operandBytes f k) 256

/-- The operand ranges that an MMA faults on (R95, R151). That a pass is wide is decided at its start (R149), and the fault at issue by
what INDIGO_WIDE and 0x7882 hold then; a change in between takes no fault back and adds none (DESIGN CHOICE, log entry 178). -/
def mmaFault (s : State) (T : Tile) (aOff k : Nat) (z : Bool) : Bool :=
  let v := matView s T
  let fa := fmtD v.fmtA
  let fb := fmtD v.fmtB
  match v.staged with
  | none => true
  | some (bOff, _) =>
    decide (k = 0) || decide (32768 < k) || decide (k % fa.block ≠ 0) || !(wideOk aOff (operandBytes fa k))
      || !(wideOk bOff (operandBytes fb k))
      || (((v.addMma s T v.fill z).pass v.fill == some true) && !(wideOk (refStart fa aOff k) (128 * k)))

/-- MMA: queued against the bank that is the fill bank in program order (R93). -/
def execMma (t : XY) (sa sb : Reg) (k : Half) (z : Bool) (s : State) : Out :=
  issueM s t [sa, sb] true (fun T => mmaFault s T (T.getG sa).toNat k.toNat z)
    (fun T => matFull T.mat || T.zeroising || T.mat.accLoad.any (fun x => x.1 == (matView s T).fill))
    (fun T => setTile s t
      (((T.laterIf .mma).pushMat (.mma (matView s T).fill (T.getG sa).toNat (fp32Of (T.getG sb)) k.toNat z T.mem)).retire 2))

/-- An XA32 code as a value. -/
def xaVal (c : Nat) : Val :=
  match xaDec c with
  | none => .nan
  | some d => .fin d

/-- The blocks of a drained bank in storage order: slab j, row i, elements along c (R120, R121). -/
def drainBlocks (lb : Nat) (codes : List Nat) : List (List Val) :=
  (List.range (64 / lb)).flatMap (fun j => (List.range 64).map (fun i =>
    ((codes.drop (64 * i + j * lb)).take lb).map xaVal))

/-- The bytes that MDRAIN writes (R121, R128); draws in storage order. -/
def drainBytes (f : Fmt) (tile : Word32) (rnd : Bool) (draws : List Nat) (codes : List Nat) : List Byte :=
  match f with
  | .xa32 => codes.flatMap (natBytes 4)
  | .wide w => (List.zipWith (fun k c => natBytes (w.width / 8) (w.enc (rndAt rnd draws k) true (xaVal c)))
      (List.range 4096) codes).flatten
  | f =>
    let q := List.zipWith (fun n b => quantBlock f tile rnd (draws.drop (n * f.block)) b)
      (List.range (4096 / f.block)) (drainBlocks f.block codes)
    let body := natBytes (elemBytes f 64) (packCodes f.width (q.flatMap (·.2)))
      ++ q.map (fun x => BitVec.ofNat 8 x.1)
    if f.isX then
      let all := body ++ natBytes 4 tile.toNat
      padTo (256 * ceilDiv all.length 256) all
    else body

/-- The range that an MDRAIN writes. -/
def drainSize (f : Fmt) : Nat :=
  if f.isX then 256 * ceilDiv (operandBytes f 64) 256
  else if f.blocked then operandBytes f 64 else 512 * f.width

/-- MDRAIN: ends the drain bank's pass and converts; it writes, and its status comes, with MDRAIN_COMPLETE, which is also when a
mismatch acts: the outputs are written and the status is TAINTED under either policy (R96, R124, R140, R145, R146; that its writes
take effect together is the model's choice, log entry 35). -/
def execMdrain (t : XY) (d : Sent) (sa sb : Reg) (fmt : FmtCode) (rnd : Bool) (s : State) : Out :=
  issueM s t [d.reg, sa, sb] (fmtOf fmt).isSome (fun T => !(wideOk (T.getG sa).toNat (drainSize (fmtD fmt))))
    (fun T => matFull T.mat || T.zeroising || bankAwaits T.mat (!(matView s T).fill)
      || holdDraw (rnd && decide (fmtD fmt ≠ .xa32)) T)
    (fun T =>
      let b := !(matView s T).fill
      let draw := rnd && decide (fmtD fmt ≠ .xa32)
      let codes := (List.range 4096).map (bankCode (T.mat.bank b))
      let exact := match T.mat.pass b with
        | none => false
        | some p => !p.wide
      let r := comparePass s t b
      let dr := if draw then (getTile r.1 t).draws 4096 else ([], getTile r.1 t)
      let l := drainBytes (fmtD fmt) (fp32Of (T.getG sb)) draw dr.1 codes
      let T : Tile := (dr.2.laterIf .drain).awaits d.reg
      setTile r.1 t ({ T with mat := { T.mat with
        drain := T.mat.drain ++ [(⟨d, if r.2 then stTainted else stOk, draw, exact, (T.getG sa).toNat, l⟩ : Drain)] } }.retire 2))

/-! ### The engine -/

/-- MATRIX_QUEUE_HEAD: an MCFG, MLDB or MSWAP at the head takes effect and leaves (R46, R93, R94, R132). -/
def execMatrixQueueHead (t : XY) (s : State) : Out :=
  .next (
    if unitRuns s t then
      match (getTile s t).mat.queue with
      | .cfg a b g :: r => modMat s t (fun m => { m with fmtA := a, fmtB := b, tag := g, queue := r })
      | .stage o x :: r => modMat s t (fun m => { m with staged := some (o, x), queue := r })
      | .swap :: r => modMat s t (fun m => { m with fill := !m.fill, queue := r })
      | _ => s
    else s)

/-- A cycle in which a K-step may start (R63). -/
def gateOpen (cyc k : Nat) : Bool := decide (((cyc % 16) * k) % 16 < k)

/-- MMA_START: the head MMA enters a free engine in an allowed cycle; with Z = 1 the pass before it is compared and the
bank zeroed; a pass begins where none is open (R63, R95, R96, R145). -/
def execMmaStart (t : XY) (s : State) : Out :=
  .next (
    let T := getTile s t
    match T.mat.queue, T.mat.running with
    | .mma b aOff aScale k z snap :: r, none =>
      if unitRuns s t && decide (T.behind .mma < (T.mat.queue.filter MatCmd.isMma).length) && gateOpen (getField s t.field).cyc.toNat (issueCap s t) then
        let s := if z then endPass s t b else s
        modMat s t (fun m =>
          let m := if z then m.setBank b [] else m
          let m := if (m.pass b).isNone then m.openPass b (wideEligible s T m.fmtA m.tag) else m
          let B := m.staged.getD (0, 0)
          { m with
            queue := r
            running := some ⟨b, aOff, aScale, B.1, B.2, k, m.fmtA, m.fmtB, snap⟩ })
      else s
    | _, _ => s)

/-! ### Accumulation (R136 to R139) -/

/-- A byte as the running MMA reads it: what the scratchpad held at the issue or holds now, either where they differ
(R132); a byte of an uncorrectable word is open. n names the free choice. -/
def operandByte (n : Nat) (snap cur : Memory) (bad : List Nat) (a : Nat) : Byte :=
  if bad.contains (a / 8) then BitVec.ofNat 8 (Config.freeNat (2 ^ 60 + 2 ^ 24 * n + a))
  else if snap.byte a = cur.byte a then cur.byte a
  else if Config.freeBit n a then snap.byte a else cur.byte a

/-- Value of element (i, k) of an operand with the block's scale and tile scale; none for NaN. -/
def operandVal (view : Nat → Byte) (off : Nat) (f : Fmt) (tile : Word32) (n i k : Nat) : Option Dy :=
  (f.dec (operandScale view off f n i (k / f.block)) tile (operandElem view off f i k)).engine

/-- Element value without scales. -/
def operandRaw (view : Nat → Byte) (off : Nat) (f : Fmt) (i k : Nat) : Option Dy :=
  (f.elem (operandElem view off f i k)).engine

/-- The exact sum of products of a block (R136, R137); none where an element is NaN. -/
def dot : List (Option Dy × Option Dy) → Option (List Dy)
  | [] => some []
  | (some a, some b) :: r => (dot r).map (fun l => a.mul b :: l)
  | _ => none

/-- The term p of block b of output (i, j): none is NaN (R134, R136, R139). -/
def MmaRun.term (r : MmaRun) (view : Nat → Byte) (bad : List BadBlock) (i j b : Nat) : Option Dy :=
  let fa := fmtD r.fmtA
  let fb := fmtD r.fmtB
  if bad.any (fun x => decide (x.blk = b) && decide (x.row = if x.ofB then j else i)) then none
  else if fa = .wide .fp32 then
    match operandRaw view r.aOff fa i b, operandRaw view r.bOff fb j b with
    | some x, some y => some (term3 x y)
    | _, _ => none
  else
    let ps := (List.range fa.block).map (fun q =>
      (operandRaw view r.aOff fa i (fa.block * b + q), operandRaw view r.bOff fb j (fa.block * b + q)))
    match dot ps, fa.factor (operandScale view r.aOff fa r.k i b) r.aScale,
        fb.factor (operandScale view r.bOff fb r.k j b) r.bScale with
    | some l, some x, some y => some (((Dy.sum l).mul x).mul y)
    | _, _, _ => none

/-- Add n terms from number b on; the code and the saturations. -/
def accumulate (term : Nat → Option Dy) : Nat → Nat → Nat × Nat → Nat × Nat
  | 0, _, x => x
  | n + 1, b, (c, o) =>
    let r := addXa32 c (term b)
    accumulate term n (b + 1) (r.1, o + b2n r.2)

def MmaRun.output (r : MmaRun) (view : Nat → Byte) (bad : List BadBlock) (i j c : Nat) : Nat × Nat :=
  accumulate (r.term view bad i j) (r.k / (fmtD r.fmtA).block) 0 (c, 0)

/-- A reference output of a wide pass: A's BF16 originals by B as decoded, a term for each k (R150). -/
def MmaRun.reference (r : MmaRun) (view : Nat → Byte) (i j c : Nat) : Nat :=
  let fa := fmtD r.fmtA
  let fb := fmtD r.fmtB
  let ref := refStart fa r.aOff r.k
  (accumulate (fun k =>
    let a := ref + 2 * r.k * i + 2 * k
    match (Wide.bf16.dec (leNat [view a, view (a + 1)])).engine, operandVal view r.bOff fb r.bScale r.k j k with
    | some x, some y => some (x.mul y)
    | _, _ => none) r.k 0 (c, 0)).1

/-- The shadow after the MMA, which follows its sub-block with the same operands (R144, R150). -/
def MmaRun.shadow (r : MmaRun) (view : Nat → Byte) (bad : List BadBlock) (p : Pass) : Pass :=
  { p with shadow := List.zipWith (fun q c =>
      let n := subOutput p.sub q
      BitVec.ofNat 32 (if p.wide then r.reference view (n / 64) (n % 64) c.toNat
        else (r.output view bad (n / 64) (n % 64) c.toNat).1)) (List.range 64) p.shadow }

/-- Words of n bytes from a whose check bits are not clean. -/
def dirtyWords (T : Tile) (a n : Nat) : List Nat :=
  (T.ecc.filter (fun e => decide (a / 8 ≤ e.1) && decide (8 * e.1 < a + n))).map (·.1)

/-- Rows of the reference region that a pass reads: the 8 sampled rows of a wide one (R150), K ÷ 16 wide accesses in all. -/
def refRows (p : Option Pass) : List Nat :=
  match p with
  | some p => if p.wide then (List.range 8).map (fun q => subOutput p.sub (8 * q) / 64) else []
  | none => []

/-- MMA_COMPLETE: every output of the bank accumulates (R136); the reference accesses of a wide pass count K ÷ 16 rounded down, and of
those of K = 8 none (R150; log entry 143); a block whose parity fails gives NaN terms and taints the
step (R134); a saturation counts (R138). `flips` is what a fault of the datapath does to outputs, bit by bit (a physical
fact: the shadow does not share it). -/
def execMmaComplete (t : XY) (bad : List BadBlock) (flips : List (Nat × Word32)) (s : State) : Out :=
  .next (
    let T := getTile s t
    match T.mat.running with
    | none => s
    | some r =>
      if padRuns s t then
        let fa := fmtD r.fmtA
        let fb := fmtD r.fmtB
        let rows := refRows (T.mat.pass r.bank)
        let ref := rows.flatMap (fun i => dirtyWords T (refStart fa r.aOff r.k + 2 * r.k * i) (2 * r.k))
        let dirty := dirtyWords T r.aOff (operandBytes fa r.k) ++ dirtyWords T r.bOff (operandBytes fb r.k) ++ ref
        let badWords := dirty.filter (fun w => decide (mfind T.ecc w = some .bad))
        let view := operandByte s.free r.snap T.mem badWords
        let old := T.mat.bank r.bank
        let outs := (List.range 4096).map (fun n => r.output view bad (n / 64) (n % 64) (bankCode old n))
        let codes := flips.foldl (fun l e => l.modify e.1 (fun c => c ^^^ e.2.toNat)) (outs.map (·.1))
        let sats := outs.foldl (fun n x => n + x.2) 0
        let s := (checkRead { s with free := s.free + 1 } t dirty).1
        let s := modTile s t (fun T =>
          { T with
            ovf := satAdd32 T.ovf sats
            mat := { ((T.mat.setBank r.bank (bankOf codes)).setPass r.bank
                ((T.mat.pass r.bank).map (r.shadow view bad))) with running := none } })
        let s := modTile s t (fun T => (T.addAct 0 (kCycles r.fmtA r.k)).addAct 2
          (ceilDiv (operandBytes fa r.k + operandBytes fb r.k) 256 + rows.length * r.k / 128))
        let s := if sats = 0 then s else setEvent s t evOverflow
        if bad = [] then s
        else taintAt (setEvent (addTotal s 0x7880 5 bad.length) t evParity) t
      else s)

/-- MDRAIN_COMPLETE: the oldest MDRAIN's bytes have been written, and its status; a mismatch of the pass that it ended acts now (R96,
R141, R146). -/
def execMdrainComplete (t : XY) (s : State) : Out :=
  .next (
    if padRuns s t then
      match (getTile s t).mat.drain with
      | x :: r =>
        if r.length < (getTile s t).behind .drain then s
        else
          let s := modTile (padPut s t x.off x.bytes x.d.bad) t (fun T =>
            { ((T.deliver x.d.reg (status64 x.st)).addAct 2 (ceilDiv x.bytes.length 256)) with mat := { T.mat with drain := r } })
          if x.st = stTainted then mismatch s t else s
      | [] => s
    else s)

/-- MLDB_ACC_COMPLETE: the oldest load has filled its bank (R141); a word that is uncorrectable is open, and so is all that arrives
with wrong parity, which taints the step (R214, R456; log entry 142). -/
def execMldbAccComplete (t : XY) (s : State) : Out :=
  .next (
    let T := getTile s t
    match T.mat.accLoad with
    | (b, off, par) :: r =>
      if padRuns s t && decide (T.behind .acc ≤ r.length) then
        let dirty := dirtyWords T off 16384
        let badWords := dirty.filter (fun w => decide (mfind T.ecc w = some .bad))
        let view := operandByte s.free T.mem T.mem (if par then wordsOf off 16384 else badWords)
        let codes := (List.range 4096).map (fun n =>
          leNat ((List.range 4).map (fun q => view (off + 4 * n + q))))
        let s := (checkRead { s with free := s.free + 1 } t dirty).1
        let s := modTile s t (fun T =>
          { T with mat := { (T.mat.setBank b (bankOf codes)) with accLoad := r } }.addAct 2 64)
        if par then taintAt (setEvent s t evParity) t else s
      else s
    | [] => s)

end Sys2Proof.Machine
end

