-- ==== Sys2Proof/Machine/Queue.lean ====
section
/-!
DEFINITION. The queue unit's instructions and timers (R97 to R99, R248, R252, R257 to R266, R297, Table 3.17). What
arrives from the mesh is in Machine/MeshArrivals.lean.
-/
namespace Sys2Proof.Machine

/-- rec(L) = 64 ⌈(L + 16) / 64⌉ (R258). -/
def recBytes (n : Nat) : Nat := 64 * ceilDiv (n + 16) 64

def Tile.getChan (T : Tile) (c : Chan) : SendChan := mget {} T.qu.chans c.toNat
def Tile.setChan (T : Tile) (c : Chan) (v : SendChan) : Tile :=
  { T with qu := { T.qu with chans := mset {} T.qu.chans c.toNat v } }

/-- Queue Q belongs to the slot (R57). -/
def Tile.ownsQueue (T : Tile) (q : QNum) : Bool := !T.multi || T.activeSlot.qmask.getLsbD q.toNat

/-! ### The receiving side's head record (R99, R261) -/

/-- Bytes in use between RP and WP. -/
def Queue.used (q : Queue) : Nat := (q.wp - q.rp).toNat

/-- Local offset of the head record: BASE + (RP mod 2^LOG2). -/
def Queue.headOffset (q : Queue) : Nat := 64 * q.base.toNat + q.rp.toNat % 2 ^ q.log2.toNat

/-- No connection is known for a record that names a device. -/
def noConn : Nat := 0x10000

/-- The record or pad that a header in the ring describes (Table 9.13). -/
def headerRecord (l : List Byte) (r : Option Landed) : Landed :=
  let len := leNat (l.take 4)
  let src := leNat ((l.drop 4).take 2)
  let flags := leNat ((l.drop 7).take 1)
  let conn := match r with
    | some ⟨_, _, _, _, some (_, c), _⟩ => c
    | _ => noConn
  let pad := flags.testBit 0
  { size := if pad then len + 16 else recBytes len, pad := pad, src := ⟨src % 128, src / 128 % 128⟩
    ch := BitVec.ofNat 5 (leNat ((l.drop 6).take 1))
    remote := if flags.testBit 2 then some (BitVec.ofNat 16 (leNat ((l.drop 10).take 2)), conn) else none
    tag := r.bind (·.tag) }

/-- What stands at the head of a queue, read from its ring (R258, R261); none where RP has reached WP. -/
def Tile.headRec (T : Tile) (q : Queue) : Option Landed :=
  if q.used = 0 then none else some (headerRecord (T.mem.bytes q.headOffset 16) q.recs.head?)

/-- QD_RP passes n bytes of the ring. -/
def Queue.release (q : Queue) (n : Nat) : Queue := { q with rp := q.rp + BitVec.ofNat 32 n, recs := q.recs.drop 1 }

/-- QD_RP steps past a pad at the head (R99). -/
def Tile.skipPad (T : Tile) (q : Queue) : Queue :=
  match T.headRec q with
  | some r => if r.pad then q.release r.size else q
  | none => q

/-- A MSG_ACK with a record's credit to its sender: over the mesh, or through XDT for a remote record, over the connection that
brought it (R261, R298). -/
def sendAck (s : State) (t : XY) (r : Landed) (by_ : Nat → Option Nat) : State :=
  let k := Pkt.owned s (partOf s t) (mkPkt .msgAck t r.src .tile)
  match r.remote with
  | none => (injectTile s { k with ch := r.ch, win := r.size }).1
  | some (dev, c) =>
    match (if c = noConn then by_ dev.toNat else some c) with
    | none => addTotal s 0x2800 6 1
    | some conn =>
      match nthCyc (cuffColumns s (connSouth conn)) conn with
      | none => addTotal s 0x2800 6 1
      | some a => (injectTile s
          { k with
            dst := a, unit := .cuffN (connSouth conn), ch := r.ch, win := r.size, remote := some (dev, conn), far := r.src }).1

/-- The partition's lowest-numbered enabled connection to a device (R297). -/
def connTo (s : State) (p : Nat) (dev : Half) : Option (Nat × Conn) :=
  s.xdt.conns.find? (fun e => e.2.enabled && decide (e.2.part = p) && decide (e.2.remoteDev = dev.toNat))

/-- The queue unit reads the header that stands at the head of a queue: one narrow access, and true where it holds an uncorrectable
word (R71, R213, R483). -/
def readHeader (s : State) (t : XY) (q : Queue) : State × Bool :=
  let x := padRead s t q.headOffset 16 .none
  (modTile x.1 t (fun T => T.addAct 3 1), x.2.1)

/-- The queue unit finds the record at the head of queue n: it reads the header there and, where that is a pad's, steps QD_RP past
the pad and reads the next (R99, R261). True where a header holds an uncorrectable word, which is used for nothing (R483). The
header is read at once, also behind an open local fence (DESIGN CHOICE, log entry 144). -/
def reachHead (s : State) (t : XY) (n : Nat) : State × Bool :=
  let q := (getTile s t).getQ n
  if q.used = 0 then (s, false)
  else
    let x := readHeader s t q
    let q' := (getTile s t).skipPad q
    if x.2 || q' = q then x
    else
      let s := modTile x.1 t (fun T => T.setQ n q')
      if q'.used = 0 then (s, false) else readHeader s t q'

/-- The record that stands at the head of a queue is released and acknowledged (R261). -/
def releaseRecord (s : State) (t : XY) (n : Nat) : State :=
  let q := (getTile s t).getQ n
  match (getTile s t).headRec q with
  | none => s
  | some r =>
    sendAck (modTile s t (fun T => T.setQ n (q.release r.size))) t r
      (fun dev => (partOf s t).bind (fun p => (connTo s p (BitVec.ofNat 16 dev)).map (·.1)))

/-- Reach the head record of a queue and release it; a pad is released without an acknowledgement. True where a header is
uncorrectable: then nothing more is released. -/
def releaseHead (s : State) (t : XY) (n : Nat) : State × Bool :=
  let x := reachHead s t n
  if x.2 then x else (releaseRecord x.1 t n, false)

/-! ### QWAIT, QPEEK, QPOP -/

/-- A header that reaches the queue unit with wrong parity: PARITY and the taint (R214, R456). The unit goes on with the header as the
scratchpad holds it, which no rule states (DESIGN CHOICE, log entry 142). -/
def headerParity (s : State) (t : XY) (par : Bool) : State := if par then taintAt (setEvent s t evParity) t else s

/-- Issue of an instruction on a receive queue: it faults where the active slot does not own the queue (R99). The read of the head's
header waits for a zeroise (R74), and an uncorrectable one faults as a load's word does (R483 names no outcome for the
instruction; DESIGN CHOICE, log entry 145). -/
def issueQ (s : State) (t : XY) (d : Got) (q : QNum) (act : State → Queue → State) : Out :=
  issue s t 2 [d.reg] true noHold (fun T =>
    if !(T.ownsQueue q) then faultCore s t evAddrFault
    else if T.zeroising && decide ((T.getQ q.toNat).used ≠ 0) then waitCore s t
    else
      let x := reachHead s t q.toNat
      if x.2 then faultCore x.1 t evEccUe
      else act (headerParity x.1 t (d.par && decide ((T.getQ q.toNat).used ≠ 0))) ((getTile x.1 t).getQ q.toNat))

/-- QWAIT (R99). -/
def execQwait (t : XY) (d : Got) (q : QNum) (s : State) : Out :=
  issueQ s t d q (fun s Q =>
    if Q.used = 0 then waitCore s t
    else modTile s t (fun T => (T.setG d.reg (BitVec.ofNat 64 Q.headOffset)).retire 2))

/-- QPEEK (R99). -/
def execQpeek (t : XY) (d : Got) (q : QNum) (s : State) : Out :=
  issueQ s t d q (fun s Q =>
    modTile s t (fun T => (T.setG d.reg (if Q.used = 0 then BitVec.allOnes 64 else BitVec.ofNat 64 Q.headOffset)).retire 2))

/-- QPOP (R261). -/
def execQpop (t : XY) (d : Got) (q : QNum) (s : State) : Out :=
  issueQ s t d q (fun s Q =>
    if Q.used = 0 then modTile s t (fun T => (T.setG d.reg (status64 stNotReady)).retire 2)
    else releaseRecord (modTile s t (fun T => (T.setG d.reg (status64 stOk)).retire 2)) t q.toNat)

/-! ### QOPEN (R97, R262, R297) -/

/-- Where a channel's trains leave the mesh: at the receiving tile, or at the connection's attachment tile (R295). -/
def chanEnd (s : State) (c : SendChan) : Option (XY × Unit_) :=
  if c.remote then (nthCyc (cuffColumns s (connSouth c.conn)) c.conn).map (fun a => (a, .cuffN (connSouth c.conn)))
  else some (c.dst, .tile)

/-- A train of a channel, without payload. -/
def chanPkt (s : State) (t : XY) (n : Chan) (c : SendChan) (ty : PktType) : Option Pkt :=
  (chanEnd s c).map (fun e =>
    { Pkt.owned s (partOf s t) (mkPkt ty t e.1 e.2) with
      ch := n, queue := c.queue, win := c.win, pin := c.pin, far := c.dst, tag := c.tag
      remote := if c.remote then some (c.device, c.conn) else none })

/-- The TAG of the next OPEN or CLOSE of a tile, by which a late answer is told from the live one: the spec does not say how these are
numbered (DESIGN CHOICE, log entry 123). -/
def Tile.takeAsk (T : Tile) : Nat × Tile := (T.qu.asks, { T with qu := { T.qu with asks := (T.qu.asks + 1) % 64 } })

/-- Send a train of a channel: whether it went into the mesh (R250). -/
def sendChan (s : State) (t : XY) (n : Chan) (c : SendChan) (ty : PktType) : State × Bool :=
  match chanPkt s t n c ty with
  | none => (addTotal s 0x2800 6 1, false)
  | some k => injectTile s k

/-- The channel that a QOPEN asks for, none where it returns RANGE without sending (R97, R262, R297). -/
def openTarget (s : State) (t : XY) (a b : Word64) (d : Reg) (pin : Bool) : Option SendChan :=
  let dst : XY := ⟨qaX a, qaY a⟩
  let w := if b = 0 then 16384 else b.toNat
  let c : SendChan :=
    { st := .opening, remote := qaRemote a, device := qaDevice a, dst := dst, queue := qaQueue a, pin := pin, win := w
      credit := 0, seq := 0, d := d, closeSent := false, conn := 0 }
  if qaReserved a then none
  else match partOf s t with
    | none => none
    | some p =>
      if qaRemote a then
        match connTo s p (qaDevice a) with
        | none => none
        | some (i, x) => if x.st = .opened then some { c with conn := i } else none
      else if tileLive s dst && decide (partOf s dst = some p) then some c
      else none

/-- QOPEN: IN_USE for a channel that is not free, whatever the address (the rules give no order; DESIGN CHOICE, log entry 122);
RANGE without sending; else an OPEN goes out and the status comes with OPEN_RSP. -/
def execQopen (t : XY) (d sa sb : Reg) (ch : Chan) (pin : Bool) (s : State) : Out :=
  issue s t 2 [d, sa, sb] true noHold (fun T =>
    let answer (s : State) (b : Byte) : State := modTile s t (fun T => (T.setG d (status64 b)).retire 2)
    if (T.getChan ch).st ≠ .free then answer s stInUse
    else match openTarget s t (T.getG sa) (T.getG sb) d pin with
      | none => answer s stRange
      | some c =>
        let c := { c with tag := T.takeAsk.1 }
        let r := sendChan (setTile s t T.takeAsk.2) t ch c .opn
        if r.2 then modTile r.1 t (fun T => ((T.setChan ch c).awaits d).retire 2)
        else answer r.1 stRange)

/-! ### QSEND (R98, R248, R263) -/

/-- The intermediate of a Valiant route: over the partition, or over the device as 0x2801 selects (R248). -/
def valiantMid (s : State) (t : XY) (r : Word32) : XY :=
  let lo := r.toNat % 65536
  let hi := r.toNat / 65536
  let whole : XY := ⟨(lo * 112) / 65536, (hi * 112) / 65536⟩
  match partOf s t with
  | none => whole
  | some p =>
    let P := getPart s p
    if P.cfg.box = 0 then
      ⟨16 * P.fx + (lo * (16 * P.w)) / 65536, 16 * P.fy + (hi * (16 * P.h)) / 65536⟩
    else whole

/-- A message of the tile's queue unit stands with flits at the tile's port still: its injection has begun and not ended (R263). -/
def Pkt.injecting (k : Pkt) (t : XY) : Bool :=
  decide (k.type = .msg) && decide (k.source = .tile) && decide (k.src = t)
    && k.trail.any (fun x => decide (x.1.a = t) && decide (x.1.b = t) && decide (0 < x.2))
def portBusy (s : State) (t : XY) : Bool := s.mesh.pkts.any (fun e => e.2.injecting t)

/-- A QSEND of `len` bytes may issue on its channel now: the credit covers it, and fewer than 8 messages are issued and not yet fully
injected (R263). -/
def canSend (s : State) (t : XY) (ch : Chan) (len : Nat) : Bool :=
  decide (recBytes len ≤ ((getTile s t).getChan ch).credit) && decide ((getTile s t).qu.out.length + b2n (portBusy s t) < 8)

/-- QSEND. A channel that is not open answers NOT_READY whatever the length (the rules give no order; DESIGN CHOICE, log entry 122). The
word of an unpinned message is drawn at issue (R124), and its route is computed then, with the holes and dead links of that moment;
no rule says when (DESIGN CHOICE, log entry 146). -/
def execQsend (t : XY) (d sa sb : Reg) (ch : Chan) (s : State) : Out :=
  issue s t 2 [d, sa, sb] true noHold (fun T =>
    let off := (T.getG sa).toNat
    let len := (T.getG sb).toNat
    let c := T.getChan ch
    let answer (b : Byte) : State := setTile s t ((T.setG d (status64 b)).retire 2)
    if !(decide (off % 64 = 0) && inPad off len) then faultCore s t evAddrFault
    else if c.st ≠ .opened then answer stNotReady
    else if len = 0 || c.win < len then answer stRange
    else if T.zeroising || holdDraw (!c.pin) T then waitCore s t
    else if !(canSend s t ch len) then
      setTile s t { T with st := .wait, qu := { T.qu with held := some (d, ch, off, len) } }
    else
      let T := if c.pin then T else T.rngStep
      let mid := if c.pin then none else some (valiantMid s t T.s3)
      let r := match chanEnd s c with
        | none => .unreachable
        | some e => routeOf s false t e.1 mid
      let m : OutMsg := ⟨d, ch, off, len, c.seq, c.pin, r⟩
      let T := T.setChan ch { c with credit := c.credit - recBytes len, seq := c.seq + 1 }
      let T := T.laterIf .msg
      countRoute (setTile s t (({ T with qu := { T.qu with out := T.qu.out ++ [m] } }.awaits d).retire 2)) r)

/-- SEND_STALL: the timer of a held QSEND expires; STALLED, unless it may issue (R98). -/
def execSendStall (t : XY) (s : State) : Out :=
  .next (
    let T := getTile s t
    match T.qu.held with
    | none => s
    | some (d, ch, _, len) =>
      if canIssue s t && decide (T.st = .wait) && !(canSend s t ch len) then
        setEvent (setTile s t
          (({ T with qu := { T.qu with stalled := ch } }.setG d (status64 stStalled)).retire 2)) t evSendStall
      else s)

/-- MSG_INJECTED: the last byte of the oldest message has left the local buffer: its train is at the tile's port, one train at a time,
unless it is unreachable, and its status is OK (R98, R250, R263; log entry 147). An uncorrectable word of the payload poisons it
(R483). -/
def execMsgInjected (t : XY) (s : State) : Out :=
  .next (
    let T := getTile s t
    match T.qu.out with
    | [] => s
    | m :: rest =>
      if padRuns s t && decide (T.behind .msg ≤ rest.length) && !(portBusy s t) then
        let c := T.getChan m.ch
        let x := padRead s t m.off m.len .none
        let s := modTile x.1 t (fun T =>
          ({ T with qu := { T.qu with out := rest } }.deliver m.d (status64 stOk)).addAct 3 (ceilDiv m.len 64))
        match chanPkt s t m.ch c .msg with
        | none => s
        | some k =>
          if m.route = .unreachable then s
          else addPkt (modTile s t (fun T => T.addAct 5 (flitsOf m.len)))
            { k with
              seq := m.seq, pin := m.pin, len := m.len, payload := x.2.2, poison := x.2.1, badPkts := badFrom T m.off m.len
              route := m.route }
      else s)

/-! ### QCLOSE (R264, R252) -/

/-- QCLOSE: the channel is closing until the status is written. -/
def execQclose (t : XY) (d : Reg) (ch : Chan) (s : State) : Out :=
  issue s t 2 [d] true noHold (fun T =>
    let c := T.getChan ch
    if c.st = .opened then
      setTile s t (((T.setChan ch { c with st := .closing, d := d, closeSent := false }).awaits d).retire 2)
    else setTile s t ((T.setG d (status64 stNotReady)).retire 2))

/-- End a QOPEN or QCLOSE: the status goes to its register and the channel takes a state. -/
def Tile.endChan (T : Tile) (ch : Chan) (c : SendChan) (b : Byte) (v : SendChan) : Tile :=
  (T.deliver c.d (status64 b)).setChan ch v

/-- CLOSE_SEND: the credit is back to rec(W) and the CLOSE goes out; an unreachable one frees the channel with NOT_READY
(R250, R264). -/
def execCloseSend (t : XY) (ch : Chan) (s : State) : Out :=
  .next (
    let c := (getTile s t).getChan ch
    if unitRuns s t && decide (c.st = .closing) && !c.closeSent && decide (c.credit = recBytes c.win) then
      let x := (getTile s t).takeAsk
      let c := { c with tag := x.1 }
      let r := sendChan (setTile s t x.2) t ch c .cls
      modTile r.1 t (fun T =>
        if r.2 then T.setChan ch { c with closeSent := true } else T.endChan ch c stNotReady {})
    else s)

/-- What answers an expired timer is discarded as it arrives (R252): the trains of that transaction or channel that are
still under way no longer name a piece that anyone waits for. -/
def orphan (s : State) (f : Pkt → Bool) : State :=
  let g (k : Pkt) : Pkt := if f k then { k with piece := 0x10000 } else k
  let port (P : Port_) : Port_ := { P with reads := mmap (fun _ r => { r with req := g r.req }) P.reads }
  { s with
    mesh := { s.mesh with pkts := mmap (fun _ k => g k) s.mesh.pkts }
    portA := port s.portA, portB := port s.portB
    xdt := { s.xdt with conns := mmap (fun _ c => { c with requests := mmap (fun _ k => g k) c.requests }) s.xdt.conns } }

/-- A train between this tile and the far end, in either direction. -/
def Pkt.ofTile (k : Pkt) (t : XY) : Bool :=
  decide (k.origin = .tile) && (if k.type.rsp then decide (k.dst = t) else decide (k.src = t))

/-- A memory request or its response. -/
def PktType.memory : PktType → Bool
  | .readReq => true
  | .write => true
  | .readRsp => true
  | .writeAck => true
  | .error => true
  | _ => false

/-- The read of BAR2 that a port numbers ends with Completer Abort: R310 names R252's expiry among the errors of the mesh, and so the
expiry is counted (DEDUCED, log entry 171). Its function is the one that asked; a late response finds no read that waits. -/
def expireBar2 (s : State) (p : HPort) (id : Nat) : State :=
  match mfind (portOf s p).bar2 id with
  | none => s
  | some x => endBar2 (addTotal s 0x2800 8 1) x.1 id none

/-- The response timers of a tile run on FCLK, also while its CCLK is stopped (R252); a reset of its context or of the device ends its
transactions in its own way. -/
def timersRun (s : State) (t : XY) : Bool := tileReached s t && !partHeld s t && s.boot.resetting.isNone

/-- A transaction that has been sent completes with an error. -/
def expireTx (s : State) (t : XY) (tag : Nat) : State :=
  let T := getTile s t
  match mfind T.tx tag with
  | none => s
  | some x =>
    if T.fences.contains (.send tag) || T.fences.contains (.put tag) then s
    else finishTx (orphan (addTotal s 0x2800 8 1) (fun k => k.type.memory && k.ofTile t && decide (k.tag = tag))) t
      tag { x with failed := true, open_ := [] }

/-- An OPEN completes its QOPEN with NOT_READY, and the channel is free. -/
def expireOpen (s : State) (t : XY) (ch : Chan) : State :=
  let c := (getTile s t).getChan ch
  if c.st = .opening then
    modTile (orphan (addTotal s 0x2800 8 1) (fun k => (k.type = .opn || k.type = .openRsp) && k.ofTile t && decide (k.ch = ch))) t
      (fun T => T.endChan ch c stNotReady {})
  else s

/-- A CLOSE completes its QCLOSE with NOT_READY; the channel is free where the CLOSE had been sent, and open where it had not. -/
def expireClose (s : State) (t : XY) (ch : Chan) : State :=
  let c := (getTile s t).getChan ch
  if c.st = .closing then
    modTile (orphan (addTotal s 0x2800 8 1) (fun k => (k.type = .cls || k.type = .closeRsp) && k.ofTile t && decide (k.ch = ch))) t
      (fun T => T.endChan ch c stNotReady (if c.closeSent then {} else { c with st := .opened }))
  else s

/-- RESPONSE_TIMEOUT (R252, R264, R310). -/
def execResponseTimeout (t : XY) (k : TimerKind) (s : State) : Out :=
  .next (match k with
    | .bar2 p id => if s.power.on then expireBar2 s p id else s
    | .transaction tag => if timersRun s t then expireTx s t tag else s
    | .opening ch => if timersRun s t then expireOpen s t ch else s
    | .closing ch => if timersRun s t then expireClose s t ch else s)

end Sys2Proof.Machine
end

