-- ==== Sys2Proof/Machine/Stream.lean ====
section
/-!
DEFINITION. The stream fabric (R173 to R181, R193, R194, R197, R200, R201) and its instructions (R100, R101, Table 3.18).
A token on a link stands in the sender's list until TOKEN_ARRIVAL. Stream DMA and the output of a detour ring move tokens
as far as they can whenever something lets them (`pump`).
-/
namespace Sys2Proof.Machine

/-! ### Links -/

/-- The tile beyond a port: 0 N, 1 E, 2 S, 3 W. -/
def nextTile (t : XY) (p : Port) : Option XY :=
  match p.toNat with
  | 0 => if t.y = 0 then none else some ⟨t.x, t.y - 1⟩
  | 1 => if 111 ≤ t.x then none else some ⟨t.x + 1, t.y⟩
  | 2 => if 111 ≤ t.y then none else some ⟨t.x, t.y + 1⟩
  | _ => if t.x = 0 then none else some ⟨t.x - 1, t.y⟩

/-- The port at the other end of a link. -/
def oppPort (p : Port) : Port := p + 2

/-- The stream link of a port: none at an outer edge, toward a hole, across a seam that is fenced, or where the link is dead (R18,
R24, R26, R205). -/
def neighbour (s : State) (t : XY) (p : Port) : Option XY :=
  match nextTile t p with
  | none => none
  | some u =>
    if tileLive s u && (decide (u.field = t.field) || ((partOf s t).isSome && partOf s t == partOf s u))
        && !(netDead s 0 t u) then some u
    else none

def modSu (s : State) (t : XY) (g : StreamUnit → StreamUnit) : State := modTile s t (fun T => { T with su := g T.su })

def Tile.inputs (T : Tile) (p : Port) : List Token := mget [] T.su.inq p.toNat
def Tile.outMode (T : Tile) (p : Port) : Nat := bits T.activeSlot.outMode.toNat (8 * p.toNat + 7) (8 * p.toNat)
def Tile.inMask (T : Tile) (p : Port) : Nat := bits T.activeSlot.inMask.toNat (8 * p.toNat + 7) (8 * p.toNat)

/-- The credit counter of a slot at an output port. -/
def creditKey (p : Port) (slot : BitVec 2) : Nat := 4 * p.toNat + slot.toNat

/-- The credits that a token of a slot finds used toward a receiver in multi-slot mode or not, and their limit: 8 of the slot's own,
or 32 of the pool that the port's four slots then form (R175). -/
def creditsUsed (T : Tile) (multi : Bool) (p : Port) (slot : BitVec 2) : Nat :=
  if multi then mget 0 T.su.used (creditKey p slot)
  else mget 0 T.su.used (creditKey p 0) + mget 0 T.su.used (creditKey p 1) + mget 0 T.su.used (creditKey p 2)
    + mget 0 T.su.used (creditKey p 3)
def creditLimit (multi : Bool) : Nat := if multi then 8 else 32

/-- A token of the slot may leave on the port (R175, R194). -/
def hasCredit (s : State) (t : XY) (p : Port) (slot : BitVec 2) : Bool :=
  match neighbour s t p with
  | none => false
  | some u =>
    let T := getTile s t
    let m := (getTile s u).multi
    !(mget false T.su.closed (4 * p.toNat + slot.toNat))
      && decide (creditsUsed T m p slot < creditLimit m)

/-- Put a token on a link; TC_ACT4 counts it. -/
def sendToken (s : State) (t : XY) (p : Port) (k : Token) : State :=
  match neighbour s t p with
  | none => s
  | some _ =>
    let key := creditKey p k.slot
    modTile s t (fun T => ({ T with su := { T.su with
      link := mset [] T.su.link p.toNat (mget [] T.su.link p.toNat ++ [k])
      used := mset 0 T.su.used key (mget 0 T.su.used key + 1) } }).addAct 4 1)

/-- Return the credit of an entry of input port p: a pulse on the way to the sender. -/
def returnCredit (s : State) (t : XY) (p : Port) (lane : Nat) : State :=
  match neighbour s t p with
  | none => s
  | some u => modSu s u (fun v => { v with
      pulses := mset [] v.pulses (oppPort p).toNat (mget [] v.pulses (oppPort p).toNat ++ [lane]) })

/-! ### Input entries (R181) -/

/-- The head token for a slot: of its own queue in multi-slot mode, of the shared queue otherwise. -/
def Tile.headFor (T : Tile) (p : Port) (slot : BitVec 2) : Option Token :=
  if T.multi then (T.inputs p).find? (fun k => k.slot = slot) else (T.inputs p).head?

/-- The head token if it is the active slot's. -/
def Tile.activeHead (T : Tile) (p : Port) : Option Token :=
  match T.headFor p T.active with
  | some k => if k.slot = T.active then some k else none
  | none => none

/-- Take the head token of a slot out of its entry; its credit is returned (R175). -/
def takeHead (s : State) (t : XY) (p : Port) (slot : BitVec 2) : State :=
  let T := getTile s t
  match T.headFor p slot with
  | none => s
  | some k =>
    let l := if T.multi then removeFirst (fun k => decide (k.slot = slot)) (T.inputs p) else (T.inputs p).tail
    returnCredit (modSu s t (fun v => { v with inq := mset [] v.inq p.toNat l, fwd := mset 0 v.fwd p.toNat 0 })) t p
      k.slot.toNat

/-! ### Kinds and errors -/

/-- The marker names slot b; its target load tag (R193). -/
def Token.names (k : Token) (b : BitVec 2) : Bool :=
  decide (k.kind = 1) && decide (k.data.toNat % 4 = b.toNat)
def Token.target (k : Token) : Half := k.data.extractLsb' 16 16

/-- The marker at the head of an active input. -/
def Tile.markerAt (T : Tile) (p : Port) (b : BitVec 2) : Option Token :=
  match T.activeHead p with
  | some k => if k.names b then some k else none
  | none => none

/-- The target tag of every marker at the head of an active input is slot b's tag. -/
def Tile.markerTags (T : Tile) (b : BitVec 2) : Bool :=
  ([0, 1, 2, 3] : List Port).all (fun p => decide (T.inMask p = 0) || (match T.markerAt p b with
    | some k => decide (k.target = (T.getSlot b).tag)
    | none => true))

/-- The comparison of R195: once the slot of an overlapped load has been loaded and is valid, a marker at the head of an active
input that names it with another tag makes the tile treat it as refused. The model compares only a slot loaded since the tile
last left it: a slot still valid from an earlier load has no section of this overlapped load yet (DEDUCED, log entry 124). -/
def compareMarkers (s : State) (t : XY) : State :=
  let T := getTile s t
  let b := T.activeSlot.next
  let v := T.getSlot b
  if T.activeSlot.ovNext && decide (b ≠ T.active) && v.valid && v.judged && !v.refused && !(T.markerTags b) then
    setEvent (setTile s t (T.setSlot b { v with refused := true })) t evCfgRefused
  else s

def kData : BitVec 2 := 0
def kEpoch : BitVec 2 := 1
def kConfig : BitVec 2 := 2
def kEnd : BitVec 2 := 3

/-- A PAR error at a consumer (R174, R456). -/
def parError (s : State) (t : XY) : State := taintAt (setEvent (addTotal s 0x2400 3 1) t evParity) t

/-- An SBP or CRP error: PARITY, which is forwarded as class 0x02 and not 0x01; the context reset of the link's partition follows the
forwarding (R174, R445, R457, Table 18.2). -/
def linkError (s : State) (t : XY) : State := setParityAs (addTotal s 0x2400 3 1) t evLane

/-- A token that the core sends: the active slot's number and load tag (R173). -/
def Tile.coreToken (T : Tile) (kind : BitVec 2) (data : BitVec 256) : Token :=
  ⟨data, kind, parOf data, T.active, T.activeSlot.tag⟩

/-! ### Detour rings (R200) -/

def Tile.ring (T : Tile) (slot : BitVec 2) : Ring := mget {} T.su.rings slot.toNat
def Tile.setRing (T : Tile) (slot : BitVec 2) (r : Ring) : Tile :=
  { T with su := { T.su with rings := mset {} T.su.rings slot.toNat r } }
/-- Tokens in the ring: gathering, in the scratchpad, and read back. -/
def Ring.count (r : Ring) : Nat := r.gather.length + (r.wr - r.rd) + r.ready.length
def Slot.ringTokens (v : Slot) : Nat := if v.dtLog2 = 0 then 0 else 2 ^ v.dtLog2.toNat / 32
/-- Tokens that the line being gathered still takes: a line is 8 tokens. -/
def Ring.lineRoom (r : Ring) : Nat := 8 - r.wr % 8 - r.gather.length
def Slot.dtPort (v : Slot) : Port := BitVec.ofNat 2 v.dtOut.toNat

/-- The detour can take this token: DATA into the ring; an END or EPOCH only when the ring is empty, straight to DT_OUT
(R197). -/
def detourReady (s : State) (t : XY) (k : Token) : Bool :=
  let T := getTile s t
  let v := T.activeSlot
  let r := T.ring T.active
  if k.kind = kData then decide (r.count < v.ringTokens) && decide (0 < r.lineRoom)
  else decide (r.count = 0) && hasCredit s t v.dtPort k.slot

def detourTake (s : State) (t : XY) (k : Token) : State :=
  let T := getTile s t
  if k.kind = kData then
    let r := T.ring T.active
    setTile s t (T.setRing T.active { r with gather := r.gather ++ [k] })
  else sendToken s t T.activeSlot.dtPort k

/-! ### Forks and routed inputs (R179, R201) -/

def allPorts : List Port := [0, 1, 2, 3]
/-- ROUTED outputs that an input names. -/
def Tile.routedOuts (T : Tile) (p : Port) : List Port := allPorts.filter (fun o => (T.inMask p).testBit (o.toNat + 1))
def Tile.toDetour (T : Tile) (p : Port) : Bool := (T.inMask p).testBit 5
def Tile.toCore (T : Tile) (p : Port) : Bool := (T.inMask p).testBit 0

/-- Whether each destination other than the core can take the token. -/
def destsReady (s : State) (t : XY) (p : Port) (k : Token) : List Bool :=
  let T := getTile s t
  (T.routedOuts p).map (fun o => decide (T.outMode o = 2) && hasCredit s t o k.slot)
    ++ (if T.toDetour p then [detourReady s t k] else [])

/-- Send the token to every destination other than the core. -/
def sendDests (s : State) (t : XY) (p : Port) (k : Token) : State :=
  let T := getTile s t
  let s := forAll (fun s o => sendToken s t o k) (T.routedOuts p) s
  if T.toDetour p then detourTake s t k else s

/-- A balance stall: one cycle (R201, R202). -/
def balanceStall (s : State) (t : XY) : State :=
  setEvent (modTile s t (fun T => { T with balStall := T.balStall + 1 })) t evBalStall

/-- The input feeds the core: its IN_MASK has the CORE bit, and its head is a DATA or END token of the active slot. -/
def coreHead (s : State) (t : XY) (p : Port) : Option Token :=
  let T := getTile s t
  if T.toCore p then
    match T.activeHead p with
    | some k => if k.kind = kData || k.kind = kEnd then some k else none
    | none => none
  else none

/-! ### Stream DMA (R100, R101, R180) -/

def StreamDma.usesIn (m : StreamDma) (p : Port) : Bool :=
  match m.kind with
  | .putm => false
  | _ => !m.ended && decide (m.inP = p)
def StreamDma.usesOut (m : StreamDma) (p : Port) : Bool :=
  match m.kind with
  | .getm => false
  | _ => !m.ended && decide (m.outP = p)
def Tile.inBusy (T : Tile) (p : Port) : Bool := T.su.dmas.any (fun m => m.usesIn p)
def Tile.outBusy (T : Tile) (p : Port) : Bool := T.su.dmas.any (fun m => m.usesOut p)

def setDma (s : State) (t : XY) (k : Nat) (m : StreamDma) : State :=
  modSu s t (fun v => { v with dmas := v.dmas.set k m })

/-- 32 bytes of a token. -/
def tokenBytes (d : BitVec 256) : List Byte := natBytes 32 d.toNat

/-- SGETM writes the tokens it has gathered: one wide access (R100). -/
def flushLine (s : State) (t : XY) (k : Nat) (m : StreamDma) : State :=
  if m.line = [] then setDma s t k m
  else
    let s := padPut s t (m.off + 32 * (m.moved - m.line.length)) (m.line.flatMap tokenBytes) m.bad
    setDma (modTile s t (fun T => T.addAct 2 1)) t k { m with line := [], bad := none }

/-- The operation ends: an SGETM's partial line is written. -/
def endDma (s : State) (t : XY) (k : Nat) (m : StreamDma) : State := flushLine s t k { m with ended := true }

/-- SGETM takes one token: none where it cannot, and none while a zeroise holds the scratchpad (R208). The END that ends the
operation is taken from the port and is not counted as a token moved: the spec counts tokens and says nothing of it (DESIGN
CHOICE, log entry 125). -/
def getmStep (s : State) (t : XY) (k : Nat) (m : StreamDma) : Option State :=
  if (getTile s t).zeroising then none
  else if m.moved = m.total then some (endDma s t k m)
  else match coreHead s t m.inP with
    | none => none
    | some x =>
      if !((destsReady s t m.inP x).all (fun b => b)) then none
      else
        let T := getTile s t
        let s := takeHead (sendDests s t m.inP x) t m.inP T.active
        if !x.parOk then some (endDma (parError s t) t k m)
        else if x.kind = kEnd then some (endDma s t k m)
        else
          let m := { m with moved := m.moved + 1, line := m.line ++ [x.data] }
          if m.moved = m.total then some (endDma s t k m)
          else if (m.off + 32 * m.moved) % 256 = 0 then some (flushLine s t k m)
          else some (setDma s t k m)

/-- Tokens of the line at a position, until a word that is uncorrectable: and whether one was met. -/
def readTokens (T : Tile) : Nat → Nat → List (BitVec 256) × Bool
  | 0, _ => ([], false)
  | n + 1, a =>
    if (wordsOf a 32).any (fun w => decide (mfind T.ecc w = some .bad)) then ([], true)
    else
      let r := readTokens T n (a + 32)
      (BitVec.ofNat 256 (leNat (T.mem.bytes a 32)) :: r.1, r.2)

/-- SPUTM reads its next line, or sends one token. -/
def putmStep (s : State) (t : XY) (k : Nat) (m : StreamDma) : Option State :=
  if m.moved = m.total then some (endDma s t k m)
  else match m.line with
    | [] =>
      if m.badNext then some (endDma s t k m)
      else if (getTile s t).zeroising then none
      else
        let a := m.off + 32 * m.moved
        let n := min ((256 - a % 256) / 32) (m.total - m.moved)
        let T := getTile s t
        let r := readTokens T n a
        let s := (checkRead s t (wordsOf a (32 * (r.1.length + b2n r.2)))).1
        some (setDma (modTile s t (fun T => T.addAct 2 1)) t k { m with line := r.1, badNext := r.2 })
    | d :: rest =>
      let T := getTile s t
      if decide (T.outMode m.outP = 1) && hasCredit s t m.outP T.active then
        let last := decide (m.moved + 1 = m.total)
        let s := sendToken s t m.outP (T.coreToken (if last && m.fin then kEnd else kData) d)
        some (setDma s t k { m with line := rest, moved := m.moved + 1 })
      else none

/-- SPASS forwards one token, unchecked (R100, R180). -/
def passStep (s : State) (t : XY) (k : Nat) (m : StreamDma) : Option State :=
  let T := getTile s t
  if m.total ≠ 0 ∧ m.moved = m.total then some (endDma s t k m)
  else if T.inMask m.inP ≠ 1 then none
  else match T.activeHead m.inP with
    | none => none
    | some x =>
      if x.kind = kEpoch then some (endDma s t k m)
      else if decide (T.outMode m.outP = 1) && hasCredit s t m.outP x.slot then
        let s := takeHead (sendToken s t m.outP x) t m.inP T.active
        let m := { m with moved := m.moved + 1 }
        if (m.total = 0 && x.kind = kEnd) || (decide (m.total ≠ 0) && decide (m.moved = m.total)) then
          some (endDma s t k m)
        else some (setDma s t k m)
      else none

/-- Operation number k waits behind a fence (R105): those are the youngest. -/
def Tile.dmaHeld (T : Tile) (k : Nat) : Bool :=
  let l := T.su.dmas.filter (fun m => decide (m.kind ≠ .pass))
  decide (l.length ≤ ((T.su.dmas.take k).filter (fun m => decide (m.kind ≠ .pass))).length + T.behind .dma)

def dmaStep (s : State) (t : XY) (k : Nat) (m : StreamDma) : Option State :=
  if m.ended || (decide (m.kind ≠ .pass) && (getTile s t).dmaHeld k) then none
  else match m.kind with
    | .getm => getmStep s t k m
    | .putm => putmStep s t k m
    | .pass => passStep s t k m

def firstStep (s : State) (t : XY) : Nat → List StreamDma → Option State
  | _, [] => none
  | k, m :: r => match dmaStep s t k m with
    | some s' => some s'
    | none => firstStep s t (k + 1) r

/-- A token read back from the active slot's ring goes to DT_OUT. -/
def ringStep (s : State) (t : XY) : Option State :=
  let T := getTile s t
  let r := T.ring T.active
  match r.ready with
  | [] => none
  | x :: rest =>
    if decide (T.outMode T.activeSlot.dtPort = 2) && hasCredit s t T.activeSlot.dtPort x.slot then
      some (sendToken (setTile s t (T.setRing T.active { r with ready := rest })) t T.activeSlot.dtPort x)
    else none

/-- Move tokens while something moves. -/
def pumpGo (t : XY) : Nat → State → State
  | 0, s => s
  | n + 1, s =>
    match firstStep s t 0 (getTile s t).su.dmas with
    | some s' => pumpGo t n s'
    | none => match ringStep s t with
      | some s' => pumpGo t n s'
      | none => s

/-- The fuel covers every token that the entries and credits of a tile can hold. -/
def pump (s : State) (t : XY) : State := if unitRuns s t then compareMarkers (pumpGo t 1024 s) t else s

/-! ### Instructions (Table 3.18) -/

/-- Half h of a vector register. -/
def vecHalf (v : Vec) (h : Bool) : BitVec 256 := if h then v.extractLsb' 256 256 else v.extractLsb' 0 256
def setHalf (v : Vec) (h : Bool) (d : BitVec 256) : Vec :=
  if h then d ++ v.extractLsb' 0 256 else v.extractLsb' 256 256 ++ d

/-- SGET: holds without a token for the active slot; as the core of a fork it takes the token only together with every
other destination (R179); a PAR error faults and takes nothing (R174). -/
def execSget (t : XY) (d : Reg) (p : Port) (h : Bool) (gk : Reg) (s : State) : Out :=
  issue s t 2 [gk] true (fun T => T.inBusy p || holdV [d] T) (fun T =>
    match coreHead s t p with
    | none => waitCore s t
    | some k =>
      if !((destsReady s t p k).all (fun b => b)) then waitCore (balanceStall s t) t
      else if !k.parOk then taintAt (faultCore (addTotal s 0x2400 3 1) t evParity) t
      else
        let s := compareMarkers (takeHead (sendDests s t p k) t p T.active) t
        modTile s t (fun T => ((T.setV d (setHalf (T.getV d) h k.data)).setG gk (BitVec.ofNat 64 k.kind.toNat)).retire 2))

/-- SPUT: holds without a credit, and on an output that is not in CORE mode (R179). -/
def execSput (t : XY) (d : Reg) (p : Port) (h fin : Bool) (s : State) : Out :=
  issue s t 2 [] true (fun T => T.outBusy p || holdV [d] T || decide (T.outMode p ≠ 1) || !(hasCredit s t p T.active)) (fun T =>
    modTile (sendToken s t p (T.coreToken (if fin then kEnd else kData) (vecHalf (T.getV d) h))) t (fun T => T.retire 2))

/-- A local range of tokens: 32-byte aligned and in the scratchpad (R100). -/
def tokensOk (off n : Nat) : Bool := decide (off % 32 = 0) && inPad off (32 * n)

/-- The operation enters its unit; one that uses the scratchpad waits there behind an open local fence (R105). -/
def startDma (s : State) (t : XY) (m : StreamDma) : State :=
  pump (modTile s t (fun T =>
    let T := if m.kind = .pass then T else T.laterIf .dma
    (({ T with su := { T.su with dmas := T.su.dmas ++ [m] } }).awaits m.d).retire 2)) t

/-- SGETM. -/
def execSgetm (t : XY) (d : Sent) (sa sb : Reg) (p : Port) (s : State) : Out :=
  issue s t 2 [d.reg, sa, sb] true noHold (fun T =>
    let off := (T.getG sa).toNat
    let n := (T.getG sb).toNat
    if !(tokensOk off n) then faultCore s t evAddrFault
    else if T.zeroising || T.inBusy p then waitCore s t
    else startDma s t ⟨.getm, d.reg, p, 0, off, n, 0, false, [], false, false, d.bad⟩)

/-- SPUTM. -/
def execSputm (t : XY) (d sa sb : Reg) (p : Port) (fin : Bool) (s : State) : Out :=
  issue s t 2 [d, sa, sb] true noHold (fun T =>
    let off := (T.getG sa).toNat
    let n := (T.getG sb).toNat
    if !(tokensOk off n) then faultCore s t evAddrFault
    else if T.zeroising || T.outBusy p then waitCore s t
    else startDma s t ⟨.putm, d, 0, p, off, n, 0, fin, [], false, false, none⟩)

/-- SPASS. -/
def execSpass (t : XY) (d sb : Reg) (p q : Port) (s : State) : Out :=
  issue s t 2 [d, sb] true (fun T => T.inBusy p || T.outBusy q) (fun T =>
    startDma s t ⟨.pass, d, p, q, 0, (T.getG sb).toNat, 0, false, [], false, false, none⟩)

/-- STREAM_DMA_COMPLETE: operation number k, which has ended, writes the count of tokens moved. -/
def execStreamDmaComplete (t : XY) (k : Nat) (s : State) : Out :=
  .next (
    match (getTile s t).su.dmas[k]? with
    | none => s
    | some m =>
      if m.ended && unitRuns s t && (decide (m.kind = .pass) || !((getTile s t).dmaHeld k)) then
        modTile s t (fun T =>
          { T with su := { T.su with dmas := T.su.dmas.eraseIdx k } }.deliver m.d (BitVec.ofNat 64 m.moved))
      else s)

/-- SGETM_LINE_FLUSH: 8 cycles without a new token. -/
def execSgetmLineFlush (t : XY) (k : Nat) (s : State) : Out :=
  .next (
    match (getTile s t).su.dmas[k]? with
    | none => s
    | some m => if !m.ended && decide (m.kind = .getm) && padRuns s t then flushLine s t k m else s)

/-! ### Link events -/

/-- TOKEN_ARRIVAL: the oldest token on the link into port p enters the entries, or the configuration buffer (R176, R187).
Lanes in error spoil PAR, or SBP, which is checked at every hop (R174). A token whose SBP is wrong is dropped, and its credit
stays out until the context reset ends: the spec says only that the reset follows (DESIGN CHOICE, log entry 126). -/
def execTokenArrival (t : XY) (p : Port) (err : TokenErr) (s : State) : Out :=
  .next (
    match neighbour s t p with
    | none => s
    | some u =>
      let o := (oppPort p).toNat
      match mget [] (getTile s u).su.link o with
      | [] => s
      | k :: rest =>
        if unitRuns s t then
          let s := modSu s u (fun v => { v with link := mset [] v.link o rest })
          match err with
          | .sbp => linkError s t
          | e =>
            let k := if e = .par then { k with par := k.par ^^^ 1 } else k
            if k.kind = kConfig then
              modSu s t (fun v => { v with cfgq := mset [] v.cfgq p.toNat (mget [] v.cfgq p.toNat ++ [k]) })
            else pump (modSu s t (fun v => { v with inq := mset [] v.inq p.toNat (mget [] v.inq p.toNat ++ [k]) })) t
        else s)

/-- CREDIT_RETURN: a pulse reaches output port p: a slot entry's, or a configuration entry's (lane 4). CRP is checked
(R174, R175, R187). A pulse whose CRP is wrong returns no credit: the spec says only that the context reset follows (DESIGN
CHOICE, log entry 126). -/
def execCreditReturn (t : XY) (p : Port) (crpErr : Bool) (s : State) : Out :=
  .next (
    match neighbour s t p, mget [] (getTile s t).su.pulses p.toNat with
    | some _, lane :: rest =>
      if unitRuns s t then
        let s := modSu s t (fun v => { v with pulses := mset [] v.pulses p.toNat rest })
        if crpErr then linkError s t
        else if lane = 4 then
          modSu s t (fun v => { v with cfgUsed := mset 0 v.cfgUsed p.toNat (mget 0 v.cfgUsed p.toNat - 1) })
        else
          let key := creditKey p (BitVec.ofNat 2 lane)
          pump (modSu s t (fun v => { v with used := mset 0 v.used key (mget 0 v.used key - 1) })) t
      else s
    | _, _ => s)

/-! ### Routed inputs -/

/-- Outputs on which a marker at this head still has to go: the named ROUTED outputs, and DT_OUT for a detour (R195,
R197). -/
def Tile.markerOuts (T : Tile) (p : Port) : List Port :=
  T.routedOuts p ++ (if T.toDetour p then [T.activeSlot.dtPort] else [])
def Tile.markerLeft (T : Tile) (p : Port) : List Port :=
  (T.markerOuts p).filter (fun o => !((mget 0 T.su.fwd p.toNat).getLsbD o.toNat))

/-- Send a marker on an output: the port is closed to the marker's slot until the tile switches (R194). -/
def sendMarker (s : State) (t : XY) (o : Port) (k : Token) : State :=
  modSu (sendToken s t o k) t (fun v => { v with closed := mset false v.closed (4 * o.toNat + k.slot.toNat) true })

/-- Whether an output can take a marker now; the one of a detour only while the ring is empty (R197). -/
def markerFits (s : State) (t : XY) (p : Port) (k : Token) (o : Port) : Bool :=
  let T := getTile s t
  decide (T.outMode o = 2) && hasCredit s t o k.slot
    && (!(T.toDetour p) || decide (o ≠ T.activeSlot.dtPort) || decide ((T.ring T.active).count = 0))

/-- A marker at the head is forwarded on every output it still owes, at once, as any token (R193); it stays at the head (R195).
A cycle in which some of those outputs can take it and some cannot is a balance stall (R201). -/
def forwardMarker (s : State) (t : XY) (p : Port) (k : Token) : State :=
  let left := (getTile s t).markerLeft p
  if left = [] then s
  else if !(left.all (markerFits s t p k)) then (if left.any (markerFits s t p k) then balanceStall s t else s)
  else
    let s := forAll (fun s o => sendMarker s t o k) left s
    let sent := left.foldl (fun (m : BitVec 4) o => m ||| (1#4 <<< o.toNat)) 0
    modSu s t (fun v => { v with fwd := mset 0 v.fwd p.toNat (mget 0 v.fwd p.toNat ||| sent) })

/-- One cycle of a routed input (R179, R193, R201): the head token goes to all destinations, or, where some but not all
can take it and the input is a fork, the cycle is a balance stall. The core is a destination that can take the token only
through an SGETM that names the port (an SGET takes it in its own step). -/
def routeInput (s : State) (t : XY) (p : Port) : State :=
  let T := getTile s t
  match T.activeHead p with
  | none => s
  | some k =>
    if k.kind = kEpoch then forwardMarker s t p k
    else
      let ready := destsReady s t p k
      if ready = [] then s
      else
        let core := if T.toCore p then [T.su.dmas.any (fun m => decide (m.kind = .getm) && m.usesIn p)] else []
        let all := ready ++ core
        if all.all (fun b => b) then
          if T.toCore p then pump s t else compareMarkers (takeHead (sendDests s t p k) t p T.active) t
        else if all.any (fun b => b) && decide (1 < all.length) then balanceStall s t
        else s

/-- ROUTED_FORWARD. -/
def execRoutedForward (t : XY) (p : Port) (s : State) : Out := .next (if unitRuns s t then routeInput s t p else s)

/-! ### Detour rings (R197, R200) -/

/-- Write tokens of a ring at a local offset; a token whose PAR is wrong poisons its words (R174, R214). -/
def writeTokens (t : XY) : Nat → List Token → State → State
  | _, [], s => s
  | a, k :: r, s =>
    let s := if k.parOk then padWrite s t a (tokenBytes k.data) else parError (padPoison s t a 32) t
    writeTokens t (a + 32) r s

/-- DETOUR_LINE_WRITE: the gathered tokens of the active slot's ring go to the scratchpad in one access. -/
def execDetourLineWrite (t : XY) (s : State) : Out :=
  .next (
    let T := getTile s t
    let v := T.activeSlot
    let r := T.ring T.active
    if padRuns s t && decide (r.gather ≠ []) && decide (v.dtLog2 ≠ 0) then
      let s := writeTokens t (v.dtBase.toNat + 32 * (r.wr % v.ringTokens)) r.gather s
      modTile s t (fun T => (T.setRing T.active
        { r with
          gather := [], wr := r.wr + r.gather.length, tags := r.tags ++ r.gather.map (·.ltag) }).addAct 2 1)
    else s)

/-- DETOUR_LINE_READ: the oldest line is read back for DT_OUT; reading stops before a token with an uncorrectable word
(R483). -/
def execDetourLineRead (t : XY) (s : State) : Out :=
  .next (
    let T := getTile s t
    let v := T.activeSlot
    let r := T.ring T.active
    if padRuns s t && decide (r.ready = []) && decide (r.rd < r.wr) && decide (v.dtLog2 ≠ 0) then
      let a := v.dtBase.toNat + 32 * (r.rd % v.ringTokens)
      let n := min (8 - r.rd % 8) (r.wr - r.rd)
      let x := readTokens T n a
      let s := (checkRead s t (wordsOf a (32 * (x.1.length + b2n x.2)))).1
      let toks := List.zipWith (fun d g => (⟨d, kData, parOf d, T.active, g⟩ : Token)) x.1 r.tags
      pump (modTile s t (fun T => (T.setRing T.active
        { r with ready := toks, rd := r.rd + x.1.length, tags := r.tags.drop x.1.length }).addAct 2 1)) t
    else s)

/-- DETOUR_MARKER_RELEASE: an END or EPOCH at the head of the detour's input goes to DT_OUT once the ring is empty
(R197). -/
def execDetourMarkerRelease (t : XY) (s : State) : Out :=
  .next (
    let T := getTile s t
    if unitRuns s t && decide ((T.ring T.active).count = 0) then
      match allPorts.find? T.toDetour with
      | none => s
      | some p => match T.activeHead p with
        | none => s
        | some k => if k.kind = kData then s else routeInput s t p
    else s)

end Sys2Proof.Machine
end

