-- ==== Sys2Proof/Machine/ConfigPath.lean ====
section
/-!
DEFINITION. Configuration images and slots (R184 to R197, R481, Tables 7.3 to 7.8) and their instructions (Table 3.19).
-/
namespace Sys2Proof.Machine

/-! ### Sections (R184, R185, Tables 7.3 and 7.4). A section is the list of its bytes. -/

def secFlags (l : List Byte) : Byte := byteAt l 1
def secAuto (l : List Byte) : Bool := (secFlags l).getLsbD 0
def secOverlap (l : List Byte) : Bool := (secFlags l).getLsbD 1
def secTag (l : List Byte) : Half := BitVec.ofNat 16 (fieldOf l 2 2)
def secDest (l : List Byte) : Nat := fieldOf l 4 2
def secEntry (l : List Byte) : Nat := fieldOf l 6 2
def secWords (l : List Byte) : Nat := fieldOf l 8 2
def secQmask (l : List Byte) : Half := BitVec.ofNat 16 (fieldOf l 10 2)
def secRouting (l : List Byte) : List Byte := (l.drop 16).take 16
/-- Length in bytes, from WORDS: 64 + 32 ⌈WORDS / 8⌉. -/
def secLen (words : Nat) : Nat := 64 + 32 * ceilDiv words 8

/-- DEST as a tile. -/
def destTile (n : Nat) : XY := ⟨n % 128, n / 128 % 128⟩
def destOf (t : XY) : Nat := 128 * t.y + t.x

/-- The rules on routing that the header decides (R185). -/
def routingOk (r : List Byte) : Bool :=
  let mode (o : Nat) : Nat := (byteAt r o).toNat
  let mask (p : Nat) : Nat := (byteAt r (4 + p)).toNat
  let ports := [0, 1, 2, 3]
  let base := fieldOf r 8 4
  let log2 := (byteAt r 12).toNat
  let out := (byteAt r 13).toNat
  let sources (o : Nat) : Nat :=
    (ports.filter (fun p => (mask p).testBit (o + 1))).length + b2n (decide (log2 ≠ 0) && decide (out = o))
  let detours := (ports.filter (fun p => (mask p).testBit 5)).length
  byteAt r 14 = 0 && byteAt r 15 = 0
    && ports.all (fun o => decide (mode o ≤ 2))
    && ports.all (fun p => decide (mask p < 64))
    && ports.all (fun o => decide (sources o = if mode o = 2 then 1 else 0))
    && (if log2 = 0 then decide (detours = 0)
        else decide (12 ≤ log2) && decide (log2 ≤ 20) && decide (base % 2 ^ log2 = 0) && inPad base (2 ^ log2)
          && decide (detours = 1) && decide (out ≤ 3))

/-- The 64 header bytes are not malformed (R186). -/
def headerOk (l : List Byte) : Bool :=
  byteAt l 0 = 1 && secFlags l &&& 0xC8 = 0 && decide (secDest l < 2 ^ 14) && decide (secEntry l < 4096)
    && allZero ((l.drop 12).take 4) && allZero ((l.drop 32).take 28) && decide (secWords l ≤ 4096)
    && (decide (secEntry l < secWords l) || (decide (secWords l = 0) && secAuto l))
    && routingOk (secRouting l)

/-- The CRC over the header, its CRC field taken as zero, and the instruction words. -/
def crcOk (l : List Byte) : Bool :=
  decide (crc32c (l.take 60 ++ zeros 4 ++ (l.drop 64).take (4 * secWords l)) = fieldOf l 60 4)

/-- The port faces a seam that is fenced (R24). An outer edge is no seam with a partner, and a hole inside the field is
no seam (log entry 30). -/
def facesFence (s : State) (t : XY) (p : Port) : Bool :=
  match nextTile t p with
  | none => false
  | some u => decide (u.field ≠ t.field) && (!(fieldAlive s u.field) || decide (partOf s u ≠ partOf s t) || (partOf s t).isNone)

/-- A port named in the routing: as an output, an input or DT_OUT. -/
def portNamed (r : List Byte) (p : Port) : Bool :=
  decide (byteAt r p.toNat ≠ 0) || decide (byteAt r (4 + p.toNat) ≠ 0)
    || (decide (byteAt r 12 ≠ 0) && decide ((byteAt r 13).toNat = p.toNat))

/-- A section is valid in the partition of the loading tile t (R185). -/
def sectionOk (s : State) (t : XY) (l : List Byte) : Bool :=
  let d := destTile (secDest l)
  headerOk l && crcOk l && tileLive s d && (partOf s t).isSome && decide (partOf s d = partOf s t)
    && allPorts.all (fun p => !(portNamed (secRouting l) p && facesFence s d p))

/-- Instruction words, a zero word unlisted. -/
def wordsFrom : Nat → List Byte → SMap Word32
  | i, a :: b :: c :: d :: r =>
    let w : Word32 := BitVec.ofNat 32 (leNat [a, b, c, d])
    if w = 0 then wordsFrom (i + 1) r else (i, w) :: wordsFrom (i + 1) r
  | _, _ => []

/-- The slot that a section makes (R481, Tables 7.3 and 7.4). -/
def sectionSlot (l : List Byte) : Slot :=
  let r := secRouting l
  { valid := true, tag := secTag l, qmask := secQmask l, entry := BitVec.ofNat 12 (secEntry l)
    wide := (secFlags l).getLsbD 2
    ibuf := wordsFrom 0 ((l.drop 64).take (4 * secWords l))
    outMode := BitVec.ofNat 32 (fieldOf r 0 4), inMask := BitVec.ofNat 32 (fieldOf r 4 4)
    dtBase := BitVec.ofNat 32 (fieldOf r 8 4), dtLog2 := byteAt r 12, dtOut := byteAt r 13
    auto := secAuto l, ovNext := secOverlap l, next := BitVec.ofNat 2 (bits (secFlags l).toNat 5 4)
    judged := true, refused := false, load := none }

/-- TC_EVENT.CFG_REFUSED, counted in 0x2400:04 (R188, R189). -/
def cfgRefuse (s : State) (t : XY) : State := setEvent (addTotal s 0x2400 4 1) t evCfgRefused

/-! ### LOAD_CONFIG's foreign sections (R323) -/

/-- A LOAD_CONFIG whose sections are all judged completes: RANGE with the number refused, or OK. -/
def finishLoad (s : State) (h : HostLoad) : State :=
  if h.left = [] then
    completeCmd s h.cmd.1 h.cmd.2.1 h.cmd.2.2
      (if h.refused = 0 then stOk else stRange) (BitVec.ofNat 64 h.refused)
  else s

/-- The section for a slot of a tile is judged: the oldest LOAD_CONFIG that awaits it is told. -/
def settle (s : State) (t : XY) (n : BitVec 2) (bad : Bool) : State :=
  match s.loads.find? (fun h => h.left.contains (t.key, n)) with
  | none => s
  | some h =>
    let h' : HostLoad := ⟨h.cmd, h.left.erase (t.key, n), h.refused + b2n bad⟩
    finishLoad { s with loads := h' :: s.loads.erase h } h'

/-! ### CLOAD (R186) -/

/-- The sections of a bundle, read one after another from a local offset: none where one does not fit below `stop`, or holds an
uncorrectable word (R185, R483). Only their bytes are read. -/
def readSections (t : XY) (stop : Nat) : Nat → Nat → State → State × Option (List (List Byte))
  | 0, _, s => (s, some [])
  | n + 1, a, s =>
    if stop < a + 64 then (s, none)
    else
      let h := padRead s t a 64 .none
      let len := secLen (secWords h.2.2)
      if h.2.1 || stop < a + len then (h.1, none)
      else
        let b := padRead h.1 t (a + 64) (len - 64) .none
        if b.2.1 then (b.1, none)
        else
          let r := readSections t stop n (a + len) b.1
          (r.1, r.2.map (fun l => (h.2.2 ++ b.2.2) :: l))

/-- A bundle header is well formed (R184). -/
def bundleOk (h : List Byte) : Bool :=
  byteAt h 0 = 1 && byteAt h 1 = 0 && decide (1 ≤ fieldOf h 2 2) && decide (fieldOf h 2 2 ≤ 256)
    && allZero ((h.drop 8).take 24)

def distinct : List Nat → Bool
  | [] => true
  | a :: r => !(r.contains a) && distinct r

/-- The sections of the bundle at a local offset, none where the bundle is invalid (R184 to R186): `strict` applies
the last sentence of R185. An uncorrectable word makes the bundle invalid (log entry 31). -/
def readBundle (s : State) (t : XY) (off : Nat) (strict : Bool) : State × Option (List (List Byte)) :=
  if !(decide (off % 32 = 0) && inPad off 32) then (s, none)
  else
    let x := padRead s t off 32 .none
    let len := fieldOf x.2.2 4 4
    if x.2.1 || !(bundleOk x.2.2) then (x.1, none)
    else
      let y := readSections t (min (off + len) padTop) (fieldOf x.2.2 2 2) (off + 32) x.1
      match y.2 with
      | none => (y.1, none)
      | some secs =>
        let own := secs.filter (fun l => decide (secDest l = destOf t))
        let good := distinct (secs.map secDest) && secs.all headerOk && own.all (sectionOk s t)
          && !(strict && secs.any (fun l => decide (secDest l ≠ destOf t) || secOverlap l))
        (y.1, if good then some secs else none)

/-- The slot while a section is on its way: VALID cleared and the buffer cleared (R186, R189, R481). -/
def Slot.cleared (v : Slot) : Slot := { v with valid := false, ibuf := [], judged := false, refused := false }

/-- Begin the work of a CLOAD or LOAD_CONFIG: judge the bundle, which is invalid where it arrives with wrong parity (R214; log entry
142); the own section's words go into the slot, whose VALID
comes with the status. A section of CONFIG tokens in progress in that slot goes on beside it (DESIGN CHOICE, log entry 179). -/
def startCload (s : State) (t : XY) (q : CloadReq) : State :=
  let p := partOf s t
  let single := match p with
    | none => true
    | some i => decide ((getPart s i).cfg.reconf = 0)
  let runs := match p with
    | none => false
    | some i => (partTiles s (getPart s i)).any (fun u => (getTile s u).run)
  let x := readBundle s t q.off (single && (q.host.isNone || runs))
  let spoilt := q.par && decide (q.off % 32 = 0) && inPad q.off 32
  let x := if spoilt then (taintAt (setEvent x.1 t evParity) t, none) else x
  let wait (s : State) (b : Byte) (loads : Bool) (f : Option CfgSend) : State :=
    modSu s t (fun v => { v with cload := some ⟨q.d, b, q.slot, loads, q.host⟩, cfgNext := f })
  match x.2 with
  | none => wait x.1 stRange false none
  | some secs =>
    let foreign := (secs.filter (fun l => decide (secDest l ≠ destOf t))).map (fun l => (secDest l, secTag l, l))
    let send : Option CfgSend := if foreign = [] then none else some ⟨q.slot, foreign, 0⟩
    match secs.find? (fun l => decide (secDest l = destOf t)) with
    | none => wait x.1 stOk false send
    | some l =>
      if maskOverlaps (getTile s t) q.slot (secQmask l) then wait (setEvent x.1 t evCfgRefused) stInUse false none
      else
        let v := { sectionSlot l with valid := false, judged := false, load := ((getTile s t).getSlot q.slot).load }
        wait (modTile x.1 t (fun T => (T.setSlot q.slot v).addAct 2
          ((q.off + 32 + secLen (secWords l) - 1) / 256 - (q.off + 32) / 256 + 1))) stOk true send

/-- The configuration path works on a load. -/
def StreamUnit.loading (v : StreamUnit) : Bool := v.cload.isSome || v.cfgSend.isSome || v.cwait ≠ []

/-- A configuration load is in progress at the tile: also one that waits behind a fence (R206). -/
def Tile.loading (T : Tile) : Bool := T.su.loading || T.fences.any (fun h => match h with
  | .cload _ => true
  | _ => false)

/-- Start now, or wait until the earlier one's sending ends, or until the scratchpad that holds the bundle is zeroised (R74). -/
def askCload (s : State) (t : XY) (q : CloadReq) : State :=
  if (getTile s t).su.loading || (getTile s t).zeroising then modSu s t (fun v => { v with cwait := v.cwait ++ [q] }) else startCload s t q

/-- The next waiting load starts once the path is idle and no zeroise holds the scratchpad. -/
def nextCload (s : State) (t : XY) : State :=
  let v := (getTile s t).su
  if v.cload.isSome || v.cfgSend.isSome || (getTile s t).zeroising then s
  else match v.cwait with
    | [] => s
    | q :: r => startCload (modSu s t (fun v => { v with cwait := r })) t q

/-- CLOAD: ACCESS for the active slot; otherwise the work begins, after an open local fence (R105), and the status comes with
CLOAD_COMPLETE. -/
def execCload (t : XY) (d : Reg) (sa : Got) (slot : Reg) (s : State) : Out :=
  issue s t 1 [d, sa.reg] (decide (slot.toNat < 4)) (fun T => T.zeroising) (fun T =>
    let n : BitVec 2 := slot.setWidth 2
    if n = T.active then setTile s t ((T.setG d (status64 stAccess)).retire 1)
    else
      let q : CloadReq := ⟨d, n, (T.getG sa.reg).toNat, none, sa.par⟩
      if T.fenced then setTile s t (((T.awaits d).later (.cload q)).retire 1)
      else askCload (setTile s t ((T.awaits d).retire 1)) t q)

/-- A slot takes its judgement: loaded, or refused (R195). -/
def Slot.judge (v : Slot) (bad : Bool) : Slot := { v with judged := true, refused := bad }

/-- What a CLOAD_COMPLETE finds: an own section whose queue mask overlaps that of a slot that has become valid meanwhile is
refused as one that overlapped at the start (R57, R186; log entry 43). -/
def cloadRefused (T : Tile) (r : CloadRec) : Bool := r.loads && maskOverlaps T r.slot (T.getSlot r.slot).qmask

/-- CLOAD_COMPLETE: VALID is set last, the status is written, and the sending begins. A LOAD_CONFIG completes here
unless foreign sections are still to be judged (R186, R323). -/
def execCloadComplete (t : XY) (s : State) : Out :=
  .next (
    let T := getTile s t
    match T.su.cload with
    | none => s
    | some r =>
      if unitRuns s t then
        let no := cloadRefused T r
        let r := if no then { r with st := stInUse, loads := false } else r
        let send := if no then none else T.su.cfgNext
        let v := T.getSlot r.slot
        let v := if r.loads then { v.judge false with valid := true } else if r.st = stOk then v else v.judge true
        let T := { T with su := { T.su with cload := none, cfgNext := none, cfgSend := send } }
        let T := T.setSlot r.slot v
        let s := match r.host with
          | none => setTile s t (T.deliver r.d (status64 r.st))
          | some c =>
            let s := setTile s t T
            match send with
            | none => completeCmd s c.1 c.2.1 c.2.2 r.st 0
            | some f => { s with loads := s.loads ++ [⟨c, f.sections.map (fun x => ((destTile x.1).key, r.slot)), 0⟩] }
        compareMarkers (nextCload (if no then setEvent s t evCfgRefused else s) t) t
      else s)

/-! ### CONFIG tokens (R187 to R189) -/

/-- The output toward DEST, x first, then y (R188). -/
def towardPort (t d : XY) : Port :=
  if t.x < d.x then 1 else if d.x < t.x then 3 else if t.y < d.y then 2 else 0

/-- DEST lies in the partition of the tile and not in a hole (R188). -/
def destOk (s : State) (t d : XY) : Bool :=
  tileLive s d && (partOf s t).isSome && decide (partOf s d = partOf s t)

/-- Put a CONFIG token on an output that has a configuration credit (R187): none where it cannot go now. CONFIG tokens
are not counted in TC_ACT4. -/
def putConfig (s : State) (t : XY) (p : Port) (k : Token) : Option State :=
  if (neighbour s t p).isSome && decide (mget 0 (getTile s t).su.cfgUsed p.toNat < 2) then
    some (modSu s t (fun v => { v with
      link := mset [] v.link p.toNat (mget [] v.link p.toNat ++ [k])
      cfgUsed := mset 0 v.cfgUsed p.toNat (mget 0 v.cfgUsed p.toNat + 1) }))
  else none

/-- Token i of a section (R187). -/
def configTok (slot : BitVec 2) (dest : Nat) (tag : Half) (l : List Byte) (i : Nat) : Token :=
  let d : BitVec 256 := BitVec.ofNat 256 (leNat (natBytes 2 dest ++ natBytes 2 i ++ zeros 4 ++ padTo 24 (l.drop (24 * i))))
  ⟨d, kConfig, parOf d, slot, tag⟩

/-- CONFIG_TOKEN_SEND: the next foreign token; a section whose DEST may not be reached is discarded (R188). -/
def execConfigTokenSend (t : XY) (s : State) : Out :=
  .next (
    match (getTile s t).su.cfgSend with
    | none => s
    | some f =>
      let go (s : State) (f : CfgSend) : State :=
        nextCload (modSu s t (fun v => { v with cfgSend := if f.sections = [] then none else some f })) t
      match f.sections with
      | [] => go s f
      | (dest, tag, l) :: rest =>
        if !(unitRuns s t) then s
        else if !(destOk s t (destTile dest)) then
          settle (go (cfgRefuse s t) ⟨f.slot, rest, 0⟩) (destTile dest) f.slot true
        else match putConfig s t (towardPort t (destTile dest)) (configTok f.slot dest tag l f.index) with
          | none => s
          | some s =>
            if f.index + 1 < ceilDiv l.length 24 then go s { f with index := f.index + 1 } else go s ⟨f.slot, rest, 0⟩)

/-- The slot's section is refused (R189): the slot stays invalid. -/
def refuseSection (s : State) (t : XY) (n : BitVec 2) : State :=
  let s := modTile s t (fun T => T.setSlot n ({ (T.getSlot n) with load := none }.judge true))
  settle (cfgRefuse s t) t n true

/-- The last token of a section has arrived: it is checked under R185 (R189). -/
def finishSection (s : State) (t : XY) (n : BitVec 2) (x : SecLoad) : State :=
  let l := x.bytes.take (secLen (secWords x.bytes))
  if !x.parBad && sectionOk s t l && decide (secDest l = destOf t) && !(maskOverlaps (getTile s t) n (secQmask l))
      && decide (n ≠ (getTile s t).active) then
    settle (compareMarkers (modTile s t (fun T => T.setSlot n (sectionSlot l))) t) t n false
  else refuseSection s t n

/-- A CONFIG token at its destination (R189). -/
def takeConfig (s : State) (t : XY) (k : Token) : State :=
  let b := tokenBytes k.data
  let i := fieldOf b 2 2
  let n := k.slot
  let bad := !k.parOk
  let s := if bad then parError s t else s
  let chunk := b.drop 8
  let store (s : State) (x : SecLoad) : State :=
    if x.next = x.total then finishSection s t n x
    else modTile s t (fun T => T.setSlot n { (T.getSlot n) with load := some x })
  if i = 0 then
    let s := if ((getTile s t).getSlot n).load.isSome then refuseSection s t n else s
    if n = (getTile s t).active then settle (cfgRefuse s t) t n true
    else
      let s := modTile s t (fun T => T.setSlot n (T.getSlot n).cleared)
      store s ⟨chunk, 1, ceilDiv (secLen (secWords chunk)) 24, bad⟩
  else match ((getTile s t).getSlot n).load with
    | none => cfgRefuse s t
    | some x =>
      if i ≠ x.next then refuseSection s t n
      else store s ⟨x.bytes ++ chunk, x.next + 1, x.total, x.parBad || bad⟩

/-- CONFIG_TOKEN: the head of input p's configuration buffer is written into the slot, forwarded toward DEST, or
discarded; its configuration credit is returned. -/
def execConfigToken (t : XY) (p : Port) (s : State) : Out :=
  .next (
    match mget [] (getTile s t).su.cfgq p.toNat with
    | [] => s
    | k :: rest =>
      if !(unitRuns s t) then s
      else
        let d := destTile (leNat ((tokenBytes k.data).take 2))
        let free (s : State) : State :=
          returnCredit (modSu s t (fun v => { v with cfgq := mset [] v.cfgq p.toNat rest })) t p 4
        if d = t then takeConfig (free s) t k
        else if !(destOk s t d) then
          let s := cfgRefuse (free s) t
          if fieldOf (tokenBytes k.data) 2 2 = 0 then settle s d k.slot true else s
        else match putConfig s t (towardPort t d) k with
          | none => s
          | some s => free s)

/-! ### Slot switch (R190, R191, R195, R196) -/

/-- Every input of the active mask has a marker naming b at its head, forwarded wherever it owes it (R195). -/
def Tile.markerComplete (T : Tile) (b : BitVec 2) : Bool :=
  allPorts.all (fun p => decide (T.inMask p = 0) || ((T.markerAt p b).isSome && decide (T.markerLeft p = [])))

/-- Slot b's entries or queues hold tokens or messages of another load tag (R56, R191). -/
def Tile.foreignHeld (T : Tile) (b : BitVec 2) : Bool :=
  let tag := (T.getSlot b).tag
  allPorts.any (fun p => (T.inputs p).any (fun k =>
      (!T.multi || decide (k.slot = b)) && !(k.names b) && decide (k.ltag ≠ tag)))
    || (List.range 16).any (fun q =>
      (!T.multi || (T.getSlot b).qmask.getLsbD q)
        && (T.getQ q).recs.any (fun r => !r.pad && decide (r.tag ≠ some tag)))

/-- The active slot is left: what its overlapped load has found, and the outputs that a marker has closed, hold no more (R194,
R195). -/
def Tile.leaveSlot (T : Tile) : Tile :=
  let T := T.setSlot T.active { T.activeSlot with judged := false, refused := false }
  { T with su := { T.su with closed := [], fwd := [] } }

/-- The marker at the head of an active input that names b is removed: the configuration path consumes it, which checks its PAR
(R100, R174). -/
def takeMarker (b : BitVec 2) (t : XY) (s : State) (p : Port) : State :=
  match (getTile s t).markerAt p b with
  | none => s
  | some k =>
    let s := takeHead s t p (getTile s t).active
    if k.parOk then s else parError s t

/-- The switch from the active slot to b (Table 7.7): transfers stop, markers that name b are removed, and the next
instruction is the entry point; a route-only slot fetches nothing (R184). -/
def switchSlot (s : State) (t : XY) (b : BitVec 2) (ov : Bool) : State :=
  let s := forAll (fun s k => match (getTile s t).su.dmas[k]? with
    | some m => if m.ended then s else endDma s t k m
    | none => s) (List.range (getTile s t).su.dmas.length) s
  let s := forAll (takeMarker b t) allPorts s
  let s := modTile s t (fun T =>
    let v := T.getSlot b
    { T.leaveSlot with
      active := b
      pc := v.entry.setWidth 13
      st := if T.st = .run || T.st = .wait then (if v.auto then .wait else .run) else T.st })
  let s := if ov then addTotal s 0x2400 5 1 else s
  pump (traceAt s t 1 0) t

/-- The active slot is left by an overlapped load into b (R195). -/
def Tile.overlapTo (T : Tile) (b : BitVec 2) : Bool := T.activeSlot.ovNext && decide (T.activeSlot.next = b)

/-- CSW. It holds until the matrix command queue and the vector unit are empty, a VLD or VST that waits behind a fence among them
(Table 2.2, R56). -/
def execCsw (t : XY) (d slot : Reg) (s : State) : Out :=
  let b : BitVec 2 := slot.setWidth 2
  issue s t 1 [d] (decide (slot.toNat < 4))
    (fun T => !(matEmpty T.mat) || !T.vecEmpty
      || (decide (b ≠ T.active) && T.overlapTo b && (!(T.getSlot b).judged || !(T.markerComplete b))))
    (fun T =>
      let v := T.getSlot b
      let ov := T.overlapTo b
      let answer (s : State) (st : Byte) : State := modTile s t (fun T => (T.setG d (status64 st)).retire 1)
      if b = T.active then answer s stOk
      else if !v.valid || (ov && v.refused) then answer s stNotReady
      else if ov && !(T.markerTags b) then answer (setEvent s t evCfgRefused) stNotReady
      else if T.foreignHeld b then answer s stInUse
      else switchSlot (addTotal (answer s stOk) 0x2400 6 1) t b ov)

/-- AUTO_SWITCH: a route-only tile with OVERLAP_NEXT switches by itself; where its target is refused it stays, and
CFG_REFUSED is set (R195, R196). -/
def execAutoSwitch (t : XY) (s : State) : Out :=
  .next (
    let T := getTile s t
    let b := T.activeSlot.next
    let v := T.getSlot b
    if unitRuns s t && T.activeSlot.auto && T.activeSlot.ovNext && decide (b ≠ T.active) && v.judged && T.markerComplete b then
      if v.refused || (v.valid && !(T.markerTags b)) then setEvent s t evCfgRefused
      else if v.valid then switchSlot s t b true
      else s
    else s)

/-! ### CFLUSH and EPOCH (R192, R193) -/

/-- Discard a slot's tokens in the entries of a port; each returns its credit. -/
def flushPort (s : State) (t : XY) (n : BitVec 2) (p : Port) : State :=
  let l := (getTile s t).inputs p
  let s := modSu s t (fun v => { v with inq := mset [] v.inq p.toNat (l.filter (fun k => decide (k.slot ≠ n))) })
  forAll (fun s (_ : Token) => returnCredit s t p n.toNat) (l.filter (fun k => decide (k.slot = n))) s

def flushSlot (s : State) (t : XY) (n : BitVec 2) : State :=
  modTile (forAll (fun s p => flushPort s t n p) allPorts s) t (fun T => T.setRing n {})

/-- Release every record of a queue (Table 3.19): true where a header that is uncorrectable ends the release (log entry 145). -/
def releaseAll (t : XY) (q : Nat) : Nat → State → State × Bool
  | 0, s => (s, false)
  | n + 1, s =>
    if ((getTile s t).getQ q).used = 0 then (s, false)
    else
      let x := releaseHead s t q
      if x.2 then x else releaseAll t q n x.1

/-- Release every record of the queues that an inactive slot owns; an uncorrectable header stops the core. -/
def releaseSlot (t : XY) (n : BitVec 2) : List Nat → State → State
  | [], s => s
  | q :: r, s =>
    let T := getTile s t
    if T.multi && (T.getSlot n).qmask.getLsbD q then
      let x := releaseAll t q (2 ^ (T.getQ q).log2.toNat / 64) s
      if x.2 then faultCore x.1 t evEccUe else releaseSlot t n r x.1
    else releaseSlot t n r s

def flushInstr (t : XY) (d : Got) (slot : Reg) (queues : Bool) (s : State) : Out :=
  issue s t 1 [d.reg] (decide (slot.toNat < 4)) (fun T => queues && T.zeroising) (fun T =>
    let n : BitVec 2 := slot.setWidth 2
    let answer (s : State) (st : Byte) : State := modTile s t (fun T => (T.setG d.reg (status64 st)).retire 1)
    if n = T.active then answer s stAccess
    else
      let s := pump (answer (flushSlot s t n) stOk) t
      let reads := T.multi && (List.range 16).any (fun q => (T.getSlot n).qmask.getLsbD q && decide ((T.getQ q).used ≠ 0))
      if queues then releaseSlot t n (List.range 16) (headerParity s t (d.par && reads)) else s)

/-- CFLUSH. -/
def execCflush (t : XY) (d slot : Reg) (s : State) : Out := flushInstr t ⟨d, false⟩ slot false s
/-- CFLUSH.Q, whose header reads wait for a zeroise (R74): also the queues that the slot owns; in single-slot mode every queue is the active slot's (R57). -/
def execCflushQ (t : XY) (d : Got) (slot : Reg) (s : State) : Out := flushInstr t d slot true s

/-- EPOCH: mask bit 4 is reserved, and a slot field above 3 is undefined (Table 3.19). It holds until every masked
port takes a token of the core. -/
def execEpoch (t : XY) (d mask slot : Reg) (s : State) : Out :=
  let outs := allPorts.filter (fun o => mask.getLsbD o.toNat)
  issue s t 1 [d] (decide (slot.toNat < 4) && !(mask.getLsbD 4))
    (fun T => !(outs.all (fun o => !(T.outBusy o) && decide (T.outMode o = 1) && hasCredit s t o T.active)))
    (fun T =>
      let k := T.coreToken kEpoch (BitVec.ofNat 256 (slot.toNat + 65536 * ((T.getG d).toNat % 65536)))
      modTile (forAll (fun s o => sendMarker s t o k) outs s) t (fun T => T.retire 1))

end Sys2Proof.Machine
end

