-- ==== Sys2Proof/Machine/Global.lean ====
section
/-!
DEFINITION. Global access: GLD, GST and GDMA (R85, R86, Table 3.8), and what the data of their responses does at the requesting tile
(R87, R242, R255). The trains that bring it are in Machine/MeshArrivals.lean.
-/
namespace Sys2Proof.Machine

/-- A GLD or GST address: bits [63:52] zero and aligned for the size (R85). -/
def globalOk (a n : Nat) : Bool := decide (a < 2 ^ 52) && decide (a % n = 0)

/-- The operand ranges of GDMA (R85). -/
def gdmaOk (loc a n : Nat) : Bool :=
  decide (loc % 64 = 0) && decide (a % 64 = 0) && decide (n % 64 = 0) && decide (64 ≤ n) && decide (n ≤ 524288)
    && inPad loc n && decide (a + n ≤ 2 ^ 52)

/-- n transaction slots are free (R49, R86). -/
def slotsFree (T : Tile) (n : Nat) : Bool := decide (T.tx.length + n ≤ 64)

/-- The effective address g[SA] + OFF of GLD and GST. -/
def globalAddr (T : Tile) (sa : Reg) (off : Off24) : Nat := (T.getG sa + off.signExtend 64).toNat

/-- Segments of up to 8,192 bytes in address order (R86): offset from the start, and length. -/
def segments (n : Nat) : List (Nat × Nat) :=
  (List.range (ceilDiv n 8192)).map (fun i => (8192 * i, min 8192 (n - 8192 * i)))

/-- GLD: one transaction, whose value arrives with READ_RSP (R85, R86). -/
def execGld (t : XY) (d sa : Reg) (off : Off24) (u : Bool) (sz : Size2) (s : State) : Out :=
  issue s t 2 [d, sa] true noHold (fun T =>
    let a := globalAddr T sa off
    let n := sizeOf2 sz
    if !(globalOk a n) then faultCore s t evAddrFault
    else if !(slotsFree T 1) then waitCore s t
    else startTx (setTile s t ((T.awaits d).retire 2)) t (.gld d u sz) a n)

/-- GST: one transaction of the low bytes of g[D] (R85, R86). -/
def execGst (t : XY) (d sa : Reg) (off : Off24) (sz : Size2) (s : State) : Out :=
  issue s t 2 [d, sa] true noHold (fun T =>
    let a := globalAddr T sa off
    let n := sizeOf2 sz
    if !(globalOk a n) then faultCore s t evAddrFault
    else if !(slotsFree T 1) then waitCore s t
    else startTx (setTile s t (T.retire 2)) t (.gst (natBytes n (T.getG d).toNat)) a n)

/-- GDMA.GET: one transaction for each segment; the data lands with READ_RSP (R86). -/
def execGdmaGet (t : XY) (d sa sb : Reg) (s : State) : Out :=
  issue s t 2 [d, sa, sb] true noHold (fun T =>
    let loc := (T.getG d).toNat
    let a := (T.getG sa).toNat
    let n := (T.getG sb).toNat
    if !(gdmaOk loc a n) then faultCore s t evAddrFault
    else if !(slotsFree T (segments n).length) then waitCore s t
    else forAll (fun s (g : Nat × Nat) => startTx s t (.get (loc + g.1)) (a + g.1) g.2)
      (segments n) (setTile s t (T.retire 2)))

/-- GDMA.PUT: the local side reads the bytes of a train as it leaves the tile (R86, R483, log entry 22). -/
def execGdmaPut (t : XY) (d sa sb : Reg) (s : State) : Out :=
  issue s t 2 [d, sa, sb] true noHold (fun T =>
    let loc := (T.getG d).toNat
    let a := (T.getG sa).toNat
    let n := (T.getG sb).toNat
    if !(gdmaOk loc a n) then faultCore s t evAddrFault
    else if !(slotsFree T (segments n).length) then waitCore s t
    else forAll (fun s (g : Nat × Nat) => startTx s t (.put (loc + g.1)) (a + g.1) g.2)
      (segments n) (setTile s t (T.retire 2)))

/-! ### Data at the requester -/

/-- Poisoned packets of a train: those of a message that CRC errors have poisoned, or the one that it is. -/
def Pkt.poisoned (k : Pkt) : Nat := max 1 k.badPkts.length

/-- A poisoned train is consumed by a tile: 0x2800:09, PARITY, and the taint of the consumer's step (R242, R456). -/
def consumePoison (s : State) (k : Pkt) : State :=
  taintAt (setEvent (addTotal s 0x2800 9 k.poisoned) k.dst evParity) k.dst

/-- Narrow accesses of n bytes from a: one for each 64-byte line touched (R256). -/
def lineCount (a n : Nat) : Nat := if n = 0 then 0 else (a + n - 1) / 64 - a / 64 + 1

/-- The value of a GLD: the bytes read, zero- or sign-extended (Table 3.8). -/
def gldValue (u : Bool) (z : Size2) (l : List Byte) : Word64 :=
  if u then BitVec.ofNat 64 (leNat l) else signExt (sizeOf2 z) (leNat l)

/-- The data of a READ_RSP takes effect at the requesting tile; where a byte reaches the core of a GLD with wrong parity, the register
receives a free value and the step is tainted, as for a load (R214, R456; log entry 142). -/
def landRead (s : State) (t : XY) (x : Tx) (k : Pkt) : State :=
  match x.kind with
  | .gld d u z =>
    if k.parBad.any (fun i => decide (i < k.payload.length)) then
      let v := readParity s t
      modTile v.2 t (fun T => T.deliver d (gldValue u z (natBytes k.payload.length v.1)))
    else modTile s t (fun T => T.deliver d (gldValue u z k.payload))
  | .get loc =>
    let a := loc + (k.addr - x.addr)
    modTile (padPut s t a k.payload k.parBad) t (fun T => T.addAct 3 (lineCount a k.payload.length))
  | .gst _ => s
  | .put _ => s

/-- A READ_RSP takes effect: a poisoned one completes its piece as an error (R87, R242). -/
def endRead (s : State) (k : Pkt) : State :=
  let s := if k.poison then consumePoison s k else s
  match mfind (getTile s k.dst).tx k.tag with
  | none => s
  | some x =>
    if x.open_.contains k.piece then
      donePiece (if k.poison then s else landRead s k.dst x k) k.dst k.tag k.piece k.poison
    else s

/-- The responses of a GDMA.GET that have waited for a local fence land (R105). -/
def landWaiting (s : State) (t : XY) (tag : Nat) : State :=
  let mine (k : Pkt) : Bool := decide (k.dst = t) && decide (k.tag = tag)
  forAll endRead (s.mesh.waiting.filter mine) (dropWaiting s mine)

end Sys2Proof.Machine
end

