-- ==== Sys2Proof/Machine/LoadStore.lean ====
section
/-!
DEFINITION. Local loads and stores (R84, Table 3.7), of the scratchpad and of the tile's own control block (R53, R67).
-/
namespace Sys2Proof.Machine

/-- The effective address g[SA] + offset modulo 2^64 (R84). -/
def localAddr (T : Tile) (sa : Reg) (off : Word64) : Nat := (T.getG sa + off).toNat

/-- The value of a load of n bytes. -/
def loadValue (n : Nat) (sx : Bool) (l : List Byte) : Word64 := if sx then signExt n (leNat l) else BitVec.ofNat 64 (leNat l)

/-- A load of n bytes; ctl allows the control block, sx extends the sign. An uncorrectable word faults at the access
(R213, Table 3.21): g[D] keeps its value. Data whose parity is wrong at the core is a free value (R214). Behind an open local
fence the access waits and g[D] awaits it (R105). -/
def load (t : XY) (w n : Nat) (ctl sx : Bool) (d sa : Reg) (off : Word64) (up : Upset) (s : State) : Out :=
  issue s t w [d, sa] true noHold (fun T =>
    let a := localAddr T sa off
    if !(localOk ctl a n) then faultCore s t evAddrFault
    else if 0x3F0000 ≤ a then setTile s t ((T.setG d (tcRead s t (a - 0x3F0000))).retire w)
    else if T.zeroising then waitCore s t
    else if T.fenced then setTile s t (((T.awaits d).later (.load d a n sx up)).retire w)
    else
      let r := padRead s t a n up
      if r.2.1 then faultCore r.1 t evEccUe
      else if up = .parity then
        let v := readParity r.1 t
        modTile v.2 t (fun T => ((T.setG d (loadValue n sx (natBytes n v.1))).addAct 3 1).retire w)
      else
        modTile r.1 t (fun T => ((T.setG d (loadValue n sx r.2.2)).addAct 3 1).retire w))

/-- A store of the low n bytes of g[D]. A store to a control-block register that the core may not write is ignored
(R67). -/
def store (t : XY) (w n : Nat) (ctl : Bool) (d : Sent) (sa : Reg) (off : Word64) (s : State) : Out :=
  issue s t w [d.reg, sa] true noHold (fun T =>
    let a := localAddr T sa off
    if !(localOk ctl a n) then faultCore s t evAddrFault
    else if 0x3F0000 ≤ a then setTile s t ((tcCoreWrite T (a - 0x3F0000) (T.getG d.reg)).retire w)
    else if T.zeroising then waitCore s t
    else if T.fenced then setTile s t ((T.later (.store a (natBytes n (T.getG d.reg).toNat) d.bad)).retire w)
    else
      let s := padPut s t a (natBytes n (T.getG d.reg).toNat) d.bad
      modTile s t (fun T => (T.addAct 3 1).retire w))

/-- LB (R84). -/
def execLb (t : XY) (d sa : Reg) (imm : Imm) (up : Upset) (s : State) : Out :=
  load t imm.words 1 false true d sa imm.value up s
/-- LH (R84). -/
def execLh (t : XY) (d sa : Reg) (imm : Imm) (up : Upset) (s : State) : Out :=
  load t imm.words 2 false true d sa imm.value up s
/-- LW (R84). -/
def execLw (t : XY) (d sa : Reg) (imm : Imm) (up : Upset) (s : State) : Out :=
  load t imm.words 4 false true d sa imm.value up s
/-- LD: the scratchpad, or a register of the own control block (R84, R276). -/
def execLd (t : XY) (d sa : Reg) (imm : Imm) (up : Upset) (s : State) : Out :=
  load t imm.words 8 true true d sa imm.value up s
/-- LBU (R84). -/
def execLbu (t : XY) (d sa : Reg) (x : Ext) (up : Upset) (s : State) : Out :=
  load t 2 1 false false d sa (x.signExtend 64) up s
/-- LHU (R84). -/
def execLhu (t : XY) (d sa : Reg) (x : Ext) (up : Upset) (s : State) : Out :=
  load t 2 2 false false d sa (x.signExtend 64) up s
/-- LWU (R84). -/
def execLwu (t : XY) (d sa : Reg) (x : Ext) (up : Upset) (s : State) : Out :=
  load t 2 4 false false d sa (x.signExtend 64) up s
/-- SB (R84, R482). -/
def execSb (t : XY) (d : Sent) (sa : Reg) (imm : Imm) (s : State) : Out := store t imm.words 1 false d sa imm.value s
/-- SH (R84, R482). -/
def execSh (t : XY) (d : Sent) (sa : Reg) (imm : Imm) (s : State) : Out := store t imm.words 2 false d sa imm.value s
/-- SW (R84, R482). -/
def execSw (t : XY) (d : Sent) (sa : Reg) (imm : Imm) (s : State) : Out := store t imm.words 4 false d sa imm.value s
/-- SD: the scratchpad, or a register of the own control block that the core may write (R67, R84). -/
def execSd (t : XY) (d : Sent) (sa : Reg) (imm : Imm) (s : State) : Out := store t imm.words 8 true d sa imm.value s

end Sys2Proof.Machine
end

