-- ==== Sys2Proof/Machine/Trim.lean ====
section
/-!
DEFINITION. Available operating points and ceilings (R366, R371, R372), bin cloaking (R372), and the request of an
operating-point change (R367, R369).
-/
namespace Sys2Proof.Machine

/-- The point is available to the partition. -/
def pointOk (s : State) (p : Nat) (pt : Nat) : Bool := (getPart s p).fields.all (fun f => (trimFor s f pt).isSome)

/-- The highest available point; OP4 where none is. -/
def ceilingOf (s : State) (p : Nat) : Nat := ([0, 1, 2, 3].find? (pointOk s p)).getD 4

/-- A request for an operating point: decided now, or kept as the most recent one while a change is in progress
(R367, R369). While an unlock zeroises at OP4, nothing changes (Table 16.9). -/
def requestPoint (s : State) (p target : Nat) : State :=
  let P := getPart s p
  if s.sec.unlocking.isSome then s
  else match P.change with
  | some _ => setPart s p { P with pendPoint := some target }
  | none => if target = P.op then s else setPart s p { P with change := some (.decided target) }

/-- The point that the partition should run: its requested point within the ceiling, one lower where the governor has
lowered it (R388, R390). -/
def Part.want (P : Part) : Nat :=
  let r := Nat.max P.reqPoint P.ceiling
  if P.lowered then min 4 (r + 1) else r

/-- No field of the partition is throttled (R390). -/
def coolPart (s : State) (P : Part) : Bool := P.fields.all (fun f => decide ((getField s f).thermal = 16))

/-- Bring the partition toward that point. A change up waits while a field has a thermal value below 16 (R390). -/
def steerPoint (s : State) (p : Nat) : State :=
  let P := getPart s p
  if P.want < P.op ∧ !(coolPart s P) then s else requestPoint s p P.want

/-- A phase entry is selected: its point becomes the requested one (R388). -/
def setPhase (s : State) (p : Nat) (i : BitVec 3) : State :=
  steerPoint (modPart s p (fun P => { P with phase := i, reqPoint := Nat.max (P.phasePoint i.toNat) P.ceiling })) p

/-- The point that the partition will run once the change under way and the request behind it are done. -/
def Part.heading (P : Part) : Nat :=
  P.pendPoint.getD (match P.change with
    | some (.decided t) => t
    | some (.stopped t) => t
    | none => P.op)

/-- R372 case 3: the ceiling falls to the highest point still available, and the partition with it. -/
def lowerCeiling (s : State) (p : Nat) : State :=
  let P := getPart s p
  let c := Nat.max P.ceiling (ceilingOf s p)
  let s := setPart s p { P with ceiling := c }
  if P.heading < c then requestPoint s p c else s

/-- A site meets every operating point at some trim, as far as its values at +20 mV say. -/
def meetsAll (s : State) (a : SiteId) : Bool :=
  [0, 1, 2, 3, 4].all (fun pt => decide (cclkUnits pt ≤ fmaxUnits s a (3 * pt + 2)))

/-- Bin cloaking of the row's excluded site (R372 case 1): 0x5000:07 counts it, and the Cloak map is measured (R442). -/
def binCloak (s : State) (a : SiteId) : State :=
  let w := getRow s a.field a.row
  let s := setSite s a { (getSite s a) with binCloaked := true }
  let s := setTrims (setRow s a.field a.row { w with kind := .binCloaked, e := a.pc, due := [] }) a.field
  measureCloak (addTotal s 0x5000 7 1)

/-- A site does not meet an operating point even at +20 mV (R372). An in-use site of a row whose spare is free has failed an item of BIST:
it is recorded, and cloaked as R439 lays down (R423, R438). -/
def binFails (s : State) (a : SiteId) : State :=
  let w := getRow s a.field a.row
  if w.kind = .spare && decide (w.e = a.pc) then binCloak s a
  else if w.kind = .spare then siteFails s a 1 meBist 0
  else match partOfField s a.field with
    | none => s
    | some p => lowerCeiling s p

end Sys2Proof.Machine
end

