-- ==== Sys2Proof/Machine/Walk.lean ====
section
/-!
DEFINITION. The spare walk (R426 to R436): steps, migrations, rotation windows and visits.
-/
namespace Sys2Proof.Machine

/-! ### Migration (R431, R432, Tables 2.15 and 17.3) -/

/-- Before the capture: the words of the scratchpad are read in 12,288 wide accesses (Table 17.3), so that a corrected word
moves clean, and the events are forwarded and cleared (Table 2.15). The counter moves with the tile. True where an uncorrectable
word was met. -/
def leaveSite (x : State × Bool) (t : XY) : State × Bool :=
  let ws := (getTile x.1 t).ecc.map (·.1)
  let s := (checkRead x.1 t ws).1
  let s := modTile s t (fun T => { (T.addAct 2 12288) with ecc := T.ecc.filter (fun e => decide (e.2 = .bad)), wback := [] })
  let y := (getTile s t).raised.foldl (fun y b => let z := raiseEvent y.1 t b; (z.1, y.2 || z.2)) (s, x.2)
  (modTile y.1 t (fun T => { T with event := 0 }), y.2)

/-- CCLK cycles of a zeroise (R74). -/
def zeroCycles : Nat := 12288

/-- The scratchpads of the site that a step fills and of the one that it vacates hold no bad word of their own any more: the one is
written over, the other begins to zeroise (R74, Tables 2.15 and 17.4). -/
def cleanSites (s : State) (f r full empty : Nat) : State :=
  let clean (s : State) (pc left : Nat) : State :=
    setSite s ⟨f, r, pc⟩ { (getSite s ⟨f, r, pc⟩) with bad := [], mem := [], slot := {}, zeroLeft := left }
  clean (clean s full 0) empty zeroCycles

/-- At the new site: the words are written in as many wide accesses (Table 17.3), and trace record 0x07; a CRC mismatch is a parity
event there, which is forwarded as class 0x0A and not 0x01, and taints the step (R432, R445, Table 18.2). -/
def enterSite (s : State) (t : XY) (crcBad : List Nat) : State :=
  let s := traceAt (modTile s t (fun T => T.addAct 2 12288)) t 7 0
  if crcBad.contains t.key then taintAt (setParityAs s t evMigrate) t else s

/-- The logical columns that a step moves when the spare is at PC e (R426). -/
def movedColumns (e : Nat) : List Nat := if 0 < e then [e - 1] else List.range 16
def movedTiles (f r e : Nat) : List XY := (movedColumns e).map (fun i => ⟨16 * (f % 7) + i, 16 * (f / 7) + r⟩)

/-- One step of a row, the oldest that is due: the migrations, then the visit of the vacated site begins (R426, R433). The counters count
(0x5000:01, 0x5000:04, 0x5002). True where these migrations, or those before them in the same window, have met an uncorrectable word. -/
def stepRow (y : State × Bool) (f r : Nat) (crcBad : List Nat) : State × Bool :=
  let s := y.1
  let w := getRow s f r
  let ts := movedTiles f r w.e
  let x := ts.foldl leaveSite y
  let s := cleanSites x.1 f r w.e (if 0 < w.e then w.e - 1 else 16)
  let late := (w.due.head?).any (fun g => decide (g < gtcOf s f))
  let s := setRow s f r { (getRow s f r) with
    e := if 0 < w.e then w.e - 1 else 16, visit := true, due := w.due.drop 1, steps := w.steps + 1 }
  let s := addTotal s 0x5000 1 1
  let s := if late then addTotal s 0x5000 4 1 else s
  (forAll (fun s t => enterSite s t crcBad) ts s, x.2)

/-- The migrations of a window have all completed; the compute reset that an uncorrectable word decides has waited for them (R432, R435). -/
def stepsDone (x : State × Bool) : State := if x.2 then decideCompute x.1 else x.1

/-! ### When a row steps (R427 to R429, R434, R369, R393) -/

/-- A clock-stopped site in the row. -/
def rowStopped (s : State) (f r : Nat) : Bool :=
  (List.range 4).any (fun b => (getBlock s (16 * f + 4 * (r / 4) + b)).stopped)

/-- A change of operating point has stopped the field's clock (R369). -/
def fieldChanging (s : State) (f : Nat) : Bool := (getField s f).stopped

/-- No MMA, MDRAIN, load of an accumulator bank or vector operation has issued and not completed, those among them that wait in their
units: each completes before its tile is captured (R76). -/
def Tile.settled (T : Tile) : Bool := matEmpty T.mat && T.vecEmpty

/-- The field has a CCLK on which sites migrate and are tested: PLL-C is locked, and a reference drives it (R4, R361, R431). -/
def fieldClocked (s : State) (f : Nat) : Bool := (getField s f).pllC && !s.clk.lost

/-- A spare row whose due step may be taken now: while the field's controller, which moves the tiles, hangs or restarts, its steps wait
and become late (R453). -/
def mayStep (s : State) (f r : Nat) : Bool :=
  let w := getRow s f r
  fieldAlive s f && fieldClocked s f && !(getField s f).hung && decide (w.kind = .spare) && !w.visit && !(rowStopped s f r) && !(fieldChanging s f)

/-- The tiles that the row's next step moves can be captured (R76), and no zeroise holds their scratchpads (R208). -/
def rowSettled (s : State) (f r : Nat) : Bool :=
  (movedTiles f r (getRow s f r).e).all (fun t => (getTile s t).settled && !(getTile s t).zeroising)

def partRunning (s : State) (f : Nat) : Bool :=
  match partOfField s f with
  | none => false
  | some p => decide ((getPart s p).st = .running)

/-- The rows of a partition that are due and may step (R428). -/
def dueRows (s : State) (p : Nat) : List (Nat × Nat) :=
  ((getPart s p).fields.flatMap (fun f => (List.range 16).map (fun r => (f, r)))).filter (fun x =>
    decide ((getRow s x.1 x.2).due ≠ []) && mayStep s x.1 x.2)

/-- Every row of the partition that is due steps in the window, once the units of its tiles have settled. -/
def stepDue (s : State) (p : Nat) (crcBad : List Nat) : State :=
  stepsDone (((dueRows s p).filter (fun x => rowSettled s x.1 x.2)).foldl (fun y x => stepRow y x.1 x.2 crcBad) (s, false))

/-- Every tile of the partition has arrived at the barrier, and it is not released (R103). -/
def barrierFull (s : State) (p : Nat) : Bool :=
  let P := getPart s p
  P.resetting.isNone && decide (P.arrived ≠ []) && (partTiles s P).all (fun t => P.arrived.contains t.key)

/-- ROTATION_WINDOW: the barrier of a RUNNING partition (R428). -/
def execRotationWindow (p : PartId) (crcBad : List Nat) (s : State) : Out :=
  .next (
    if barrierFull s p && decide ((getPart s p).st = .running) && s.boot.resetting.isNone then stepDue s p crcBad else s)

/-- The walk deadline, ns (0x5001:00, in ms). -/
def walkDeadline (s : State) : Nat := 1000000 * liveNat s 0x5001 0 1000

/-- FORCED_ROTATION_WINDOW: a step has waited the walk deadline (R429). -/
def execForcedRotationWindow (p : PartId) (crcBad : List Nat) (s : State) : Out :=
  .next (
    let P := getPart s p
    let late := (dueRows s p).any (fun x => rowSettled s x.1 x.2 &&
      ((getRow s x.1 x.2).due.head?).any (fun g => decide (g + walkDeadline s ≤ gtcOf s x.1)))
    if decide (P.st = .running) && P.resetting.isNone && s.boot.resetting.isNone && late then
      stepDue (addTotal s 0x5000 5 1) p crcBad
    else s)

/-- The oldest due step of a row is taken at once where its partition is not RUNNING and nothing holds it (R428, R434). -/
def takeDue (x : State × Bool) (f r : Nat) (crcBad : List Nat) : State × Bool :=
  if decide ((getRow x.1 f r).due ≠ []) && mayStep x.1 f r && rowSettled x.1 f r && !(partRunning x.1 f) then stepRow x f r crcBad else x

/-- A row's next step falls due now; steps that still wait stay due before it (R427, R428, R430). -/
def rowDue (crcBad : List Nat) (x : State × Bool) (a : Nat × Nat) : State × Bool :=
  let w := getRow x.1 a.1 a.2
  if !(fieldAlive x.1 a.1) || decide (w.kind ≠ .spare) then x
  else takeDue (setRow x.1 a.1 a.2 { w with due := w.due ++ [gtcOf x.1 a.1] }, x.2) a.1 a.2 crcBad

/-- WALK_STEP_DUE of group g: rows g and g + 8 of every field (R427). No step begins while a device-wide reset is in
progress or the block is not READY. -/
def execWalkStepDue (g : Nat) (crcBad : List Nat) (s : State) : Out :=
  .next (
    if s.boot.st = .ready && decide (g < 8) then
      stepsDone (((List.range 49).flatMap (fun f => [(f, g), (f, g + 8)])).foldl (rowDue crcBad) (s, false))
    else s)

/-! ### Visits (R433 to R435, R440, R372) -/

/-- A request for a test of this site waits (R437): a bin-cloaked site is then visited in place. -/
def siteRequested (s : State) (a : SiteId) : Bool :=
  s.tests.requests.any (fun q => decide (q.kind = 0) && decide (q.a = a.field) && decide (q.row = a.row) && decide (q.pc = a.pc))

/-- The sites that failed in use while the row's spare was under a visit are dealt with now, in the order of their failing
(R435, R441). -/
def serveWaiting (s : State) (f r : Nat) : State :=
  let w := getRow s f r
  forAll (fun s pc => loseSite s ⟨f, r, pc⟩ (lossOf s ⟨f, r, pc⟩)) w.waiting (setRow s f r { w with waiting := [] })

/-- A result record of 0x5021 (Table 17.9); 16 are kept, newest first. -/
def putResult (s : State) (kind a row pc : Nat) (res ochre : Byte) : State :=
  let r := natBytes 8 (gtcAt s (if kind = 2 then 49 else a)) ++ [BitVec.ofNat 8 kind, BitVec.ofNat 8 a, BitVec.ofNat 8 row,
    BitVec.ofNat 8 pc, res, ochre, 0, 0]
  { s with tests := { s.tests with results := (r :: s.tests.results).take 16 } }

/-- A visit that was requested writes a result record for every request that it completes (R437, Table 17.4). -/
def visitResult (s : State) (a : SiteId) (v : VisitRes) : State :=
  if siteRequested s a then
    let mine (q : TestReq) : Bool := decide (q.kind = 0) && decide (q.a = a.field) && decide (q.row = a.row) && decide (q.pc = a.pc)
    let done := s.tests.requests.filter mine
    let s := { s with tests := { s.tests with requests := s.tests.requests.filter (fun q => !(mine q)) } }
    let x : Byte × Byte := match v with
      | .pass => (0, 0)
      | .marginOnly => (1, 0)
      | .fail o => (1, o)
    forAll (fun s _ => putResult s 0 a.field a.row a.pc x.1 x.2) done s
  else s

/-- Every value measured at +20 mV meets its operating point. -/
def sweepOk (fmax : List (Nat × Nat)) : Bool :=
  fmax.all (fun x => decide (x.1 % 3 ≠ 2) || decide (cclkUnits (x.1 / 3) ≤ x.2 % 4096))

/-- The visit of the vacated site of a spare row ends, its last zeroise with it; an unproven site is none any more (R423). -/
def walkVisit (s : State) (a : SiteId) (v : VisitRes) : State :=
  let s := setRow s a.field a.row { (getRow s a.field a.row) with visit := false }
  let s := setSite s a { (getSite s a) with unproven := false, zeroLeft := 0 }
  let s := match v with
    | .pass => setTrims (addTotal s 0x5000 2 1) a.field
    | .marginOnly => binFails (addTotal s 0x5000 3 1) a
    | .fail o => siteFails (addTotal s 0x5000 3 1) a 4 meWalk o.toNat
  serveWaiting s a.field a.row

/-- A bin-cloaked site visited in place (R437): it returns as the spare, stays, or is recorded as failing. -/
def placeVisit (s : State) (a : SiteId) (v : VisitRes) : State :=
  let w := getRow s a.field a.row
  let keep (s : State) : State := addTotal s 0x5000 3 1
  match v with
  | .pass =>
    let s := addTotal s 0x5000 2 1
    if meetsAll s a then
      let s := setSite s a { (getSite s a) with binCloaked := false }
      measureCloak (setTrims (setRow s a.field a.row { w with kind := .spare }) a.field)
    else s
  | .marginOnly => keep s
  | .fail o =>
    let s := setRow (siteFails (keep s) a 4 meWalk o.toNat) a.field a.row { w with kind := .cloaked }
    measureCloak s

/-- VISIT_COMPLETE: the excluded site of the row. The values that the margin sweep can reach replace the old ones, trims and
R372 act on them, a requested visit writes its record, and a step of the row that has fallen due meanwhile may follow (R370,
R371, R433, R437). The visit of a site whose own block's clock is stopped pauses (R434), and so does every visit while no reference
drives the field's CCLK (R361). A value at +20 mV below its point fails the visit at its step 4. -/
def execVisitComplete (f row : Nat) (v : VisitRes) (fmax : List (Nat × Nat)) (s : State) : Out :=
  .next (
    let w := getRow s f row
    let a : SiteId := ⟨f, row, w.e⟩
    let seen := underRail s f fmax
    let v : VisitRes := if v = .pass && !(sweepOk seen) then .marginOnly else v
    let swept (s : State) : State := measureFmax s a seen
    if !(fieldAlive s f) || !(fieldClocked s f) || s.boot.st ≠ .ready || (getBlock s a.block).stopped then s
    else if w.kind = .spare && w.visit then stepsDone (takeDue (visitResult (walkVisit (swept s) a v) a v, false) f row [])
    else if w.kind = .binCloaked && siteRequested s a then visitResult (placeVisit (swept s) a v) a v
    else s)

end Sys2Proof.Machine
end

