-- ==== Sys2Proof/Machine/System.lean ====
section
/-!
DEFINITION. System instructions (R103 to R106, Table 3.20), the release of the STEP barrier (R103, R147, R467) and the
completion of fences (R105).
-/
namespace Sys2Proof.Machine

/-! ### STEP -/

/-- STEP: the tile arrives at the barrier and holds there (R103). It holds at issue until every pass that ended before it
has completed its compare (R145). An arrival is recorded once (R76). In a tile of no partition there is no barrier to arrive
at, of which the spec says nothing: the core holds, no arrival is recorded and nothing releases it (DESIGN CHOICE, log entry
119). -/
def execStep (t : XY) (d : Reg) (s : State) : Out :=
  issue s t 1 [d] true (comparePending s) (fun _ =>
    let s := modTile s t (fun T => { T with st := .barrier, stepD := some d })
    match partOf s t with
    | none => s
    | some p =>
      let P := getPart s p
      if P.arrived.contains t.key then s
      else setPart s p { P with
        arrived := t.key :: P.arrived
        firstAt := if P.arrived = [] then gtcOf s t.field else P.firstAt
        lastAt := gtcOf s t.field })

/-- The history record of a barrier that is released now (Table 18.9), its times those of the field of the tile that arrived
last (log entry 115). The first release has no previous one, and its
DURATION is a free value (log entry 3). -/
def stepRecord (s : State) (P : Part) : StepRec :=
  let last := XY.ofKey (P.arrived.headD 0)
  let us := match P.lastRelease with
    | some g => (gtcOf s last.field - g) / 1000
    | none => (freeVal s).1
  { release := BitVec.ofNat 64 (gtcOf s last.field)
    duration := BitVec.ofNat 32 (min us 0xFFFFFFFF)
    spread := BitVec.ofNat 16 (min ((P.lastAt - P.firstAt) / 1000) 0xFFFF)
    lastX := BitVec.ofNat 8 last.x
    lastY := BitVec.ofNat 8 last.y }

/-- What STEP returns: the new step number and OK or TAINTED (R103). -/
def stepResult (n : Nat) (b : Byte) : Word64 := BitVec.ofNat 64 (256 * n + b.toNat)

/-- One tile is released. -/
def releaseTile (n : Nat) (b : Byte) (s : State) (t : XY) : State :=
  let T := getTile s t
  match T.stepD with
  | none => s
  | some d =>
    traceAt (setTile s t { ((T.setG d (stepResult n b)).retire 1) with stepD := none }) t 4 (n % 2 ^ 32)

/-- The state of the partition after the release. A policy write takes effect now (R154): the model takes the release of the
STEP barrier, and neither a LAUNCH nor the end of a context reset, for a step boundary (DESIGN CHOICE, log entry 120). -/
def Part.afterStep (P : Part) (n gtc : Nat) (r : StepRec) : Part :=
  { P with
    n := n, taintN := P.taint, taint := false, arrived := [], lastRelease := some gtc
    history := (r :: P.history).take 64
    cfg := { P.cfg with policy := P.cfg.policyNext } }

/-- A due row still has to step in the rotation window (R428). -/
def windowOpen (s : State) (p : Nat) : Bool := decide ((getPart s p).st = .running) && decide (dueRows s p ≠ [])

/-- STEP_RELEASE: every tile has arrived, the rows that are due have stepped, and every tile's CCLK runs (R103, R428; while it
is stopped nothing of a tile advances, R368). -/
def execStepRelease (p : PartId) (s : State) : Out :=
  .next (
    if barrierFull s p && !(windowOpen s p) && (partTiles s (getPart s p)).all (clockOn s) && s.boot.resetting.isNone then
      let P := getPart s p
      let n := (P.n + 1) % 2 ^ 56
      let b := if P.taint && decide (P.cfg.policy = 1) then stTainted else stOk
      let r := stepRecord s P
      let s := if P.lastRelease = none then (freeVal s).2 else s
      forAll (releaseTile n b) (partTiles s P) (setPart s p (P.afterStep n r.release.toNat r))
    else s)

/-! ### PHASE, GTC, EVT, HALT -/

/-- PHASE: the partition's requested phase; its point and cap follow (R104, R388). -/
def execPhase (t : XY) (ix : Reg) (s : State) : Out :=
  issue s t 1 [] (decide (ix.toNat < 8)) noHold (fun T =>
    let s := traceAt (setTile s t (T.retire 1)) t 5 ix.toNat
    match partOf s t with
    | none => s
    | some p => setPhase s p (ix.setWidth 3))

/-- GTC: the field's copy, ns (R373). -/
def execGtc (t : XY) (d : Reg) (s : State) : Out :=
  issueG s t 1 d [] true (fun _ => BitVec.ofNat 64 (gtcOf s t.field))

/-- EVT: SW_EVT, and a record of kind 0x02 (R72). -/
def execEvt (t : XY) (sa : Reg) (s : State) : Out :=
  issue s t 1 [sa] true noHold (fun T =>
    traceAt (setEvent (setTile s t (T.retire 1)) t evSwEvt) t 2 ((T.getG sa).toNat % 2 ^ 32))

/-- HALT: HALTED, a record of kind 0x06, and the core stops with RUN left at 1 (R106). -/
def execHalt (t : XY) (s : State) : Out :=
  issue s t 1 [] true noHold (fun T =>
    traceAt (setEvent (setTile s t { (T.retire 1) with st := .halt }) t evHalted) t 6 0)

/-! ### FENCE (R105) -/

/-- FENCE: the core continues; mode 0 and the field's upper bits are undefined. -/
def execFence (t : XY) (d mode : Reg) (s : State) : Out :=
  issue s t 1 [d] (decide (1 ≤ mode.toNat) && decide (mode.toNat ≤ 3)) noHold (fun T =>
    setTile s t (((T.awaits d).later (.fence d (mode.getLsbD 0) (mode.getLsbD 1))).retire 1))

/-- Every scratchpad access that the units hold and that does not wait behind a fence has taken effect. An MLDB with ACC = 0 makes
none (R132). -/
def localDone (s : State) (t : XY) : Bool :=
  let T := getTile s t
  let m := T.mat
  decide ((m.queue.filter MatCmd.isMma).length ≤ T.behind .mma) && m.running.isNone
    && decide (m.drain.length ≤ T.behind .drain) && decide (m.accLoad.length ≤ T.behind .acc)
    && (List.range T.su.dmas.length).all (fun k => match T.su.dmas[k]? with
      | some d => d.ended || decide (d.kind = .pass) || T.dmaHeld k
      | none => true)
    && decide (T.qu.out.length ≤ T.behind .msg) && T.su.cload.isNone && T.su.cwait.isEmpty
    && T.tx.all (fun x => match x.2.kind with
      | .get _ => T.fences.contains (.land x.1)
      | _ => true)
    && s.mesh.pkts.all (fun e => e.2.loc.isNone || decide (e.2.src ≠ t))

/-- A fence between what stands before and after it has completed (R105): local, when the accesses before it have taken effect;
global, when every transaction issued before it has completed. -/
def fenceDone (s : State) (t : XY) (pre : List Held) (loc glob : Bool) (post : List Held) : Bool :=
  (!loc || (localDone s t && pre.all (fun h => !h.loc)))
    && (!glob || (getTile s t).tx.all (fun x => post.contains (.send x.1) || post.contains (.put x.1)))

/-- The first fence that has completed, with what stands before and after it. -/
def findFence (s : State) (t : XY) : List Held → List Held → Option (List Held × Reg × List Held)
  | _, [] => none
  | pre, .fence d l g :: r => if fenceDone s t pre l g r then some (pre, d, r) else findFence s t (pre ++ [.fence d l g]) r
  | pre, h :: r => findFence s t (pre ++ [h]) r

/-- The queued MMAs of numbers lo and on, below hi, read what the scratchpad holds from now on (R105, R132); i is the number of the
next one. -/
def renewSnap (mem : Memory) (lo hi : Nat) : Nat → List MatCmd → List MatCmd
  | _, [] => []
  | i, .mma b a x k z m :: r =>
    .mma b a x k z (if lo ≤ i ∧ i < hi then mem else m) :: renewSnap mem lo hi (i + 1) r
  | i, c :: r => c :: renewSnap mem lo hi i r

/-- The fences as they stand now; the MMAs that they hold no more take the scratchpad as it is. -/
def Tile.withFences (T : Tile) (l : List Held) : Tile :=
  let n := (T.mat.queue.filter MatCmd.isMma).length
  { T with fences := l, mat := { T.mat with
      queue := renewSnap T.mem (n - T.behind .mma) (n - l.count .mma) 0 T.mat.queue } }

/-- A held access proceeds. The load of an uncorrectable word stops the core, and its register keeps its value. -/
def runHeld (t : XY) (s : State) (h : Held) : State :=
  match h with
  | .load d a n sx up =>
    let r := padRead s t a n up
    if r.2.1 then stopCore (modTile r.1 t (fun T => { T with await := T.await.erase d })) t evEccUe
    else if up = .parity then
      let v := readParity r.1 t
      modTile v.2 t (fun T => (T.deliver d (loadValue n sx (natBytes n v.1))).addAct 3 1)
    else modTile r.1 t (fun T => (T.deliver d (loadValue n sx r.2.2)).addAct 3 1)
  | .vload d a up =>
    let r := padRead s t a 64 up
    let s := modTile r.1 t (fun T => { T with awaitV := T.awaitV.erase d })
    if r.2.1 then stopCore s t evEccUe
    else if up = .parity then
      let v := readParity s t
      modTile v.2 t (fun T => (T.setV d (BitVec.ofNat 512 v.1)).addAct 3 1)
    else modTile s t (fun T => (T.setV d (BitVec.ofNat 512 (leNat r.2.2))).addAct 3 1)
  | .store a l bad => modTile (padPut s t a l bad) t (fun T => T.addAct 3 1)
  | .vstore a l bad => modTile (padPut s t a l bad) t (fun T => T.addAct 3 1)
  | .cload q => askCload s t q
  | .send tag => sendTx s t tag
  | .put tag => sendTx s t tag
  | .dma => pump s t
  | .land tag => landWaiting s t tag
  | _ => s

/-- The held accesses that no fence holds any more proceed one by one, in program order. -/
def runFree (t : XY) : List Held → State → State
  | [], s => s
  | h :: r, s => runFree t r (runHeld t s h)

/-- FENCE_COMPLETE: the oldest fence that has completed writes 0, and what waited for it alone proceeds. -/
def execFenceComplete (t : XY) (s : State) : Out :=
  .next (
    if padRuns s t then
      match findFence s t [] (getTile s t).fences with
      | none => s
      | some (pre, d, post) =>
        let x := freeGo false false (pre ++ post)
        runFree t x.2 (modTile s t (fun T => (T.withFences x.1).deliver d 0))
    else s)

end Sys2Proof.Machine
end

