-- ==== Sys2Proof/Machine/Control.lean ====
section
/-!
DEFINITION. Writes to the control block (R66 to R70, Tables 2.5 to 2.13, 9.9 to 9.12), and the scratchpad's own events:
the end of a zeroise (R74), write-back (R213) and scrub (R215 to R217).
-/
namespace Sys2Proof.Machine

/-! ### TC_CTRL (R68, Table 2.8) -/

/-- No stream token in an entry of any slot, in a configuration buffer or in a detour ring, and no queued message. -/
def Tile.quiet (T : Tile) : Bool :=
  T.su.inq.isEmpty && T.su.cfgq.isEmpty && T.su.rings.all (fun r => decide (r.2.count = 0))
    && (List.range 16).all (fun q => decide ((T.getQ q).used = 0))

/-- RUN set from 0: the core fetches at the active slot's entry point. A tile whose active slot is invalid stays STOPPED
(R75), a route-only slot fetches nothing and reads WAIT (R184), and a core in FAULT stays there (R107). -/
def Tile.start (T : Tile) : Tile :=
  let v := T.activeSlot
  if T.st = .fault then { T with run := true }
  else { T with
    run := true, pc := v.entry.setWidth 13
    st := if !v.valid then .stopped else if v.auto then .wait else .run }

/-- RUN written 0: the core stops at the next instruction boundary; a waiting instruction has not completed (R76). -/
def Tile.stop (T : Tile) : Tile :=
  { T with
    run := false, stepD := none, qu := { T.qu with held := none }
    st := if T.st = .fault then .fault else .stopped }

def Tile.setRun (T : Tile) (r : Bool) : Tile :=
  if r && !T.run then T.start else if !r && T.run then T.stop else T

/-- Change MULTI_SLOT: credits toward this tile are judged by the new mode (R175). Those that are still out, as tokens or pulses under
way, stay counted at the sender until their pulses return: R68 does not forbid them and no rule says what becomes of them (DESIGN
CHOICE, log entry 128). -/
def Tile.setMulti (T : Tile) (m : Bool) : Tile := { T with multi := m }

/-- TC_CTRL_WRITE, as every write to the control block where FCLK reaches it (R4, R58). -/
def execTcCtrlWrite (t : XY) (val : Word64) (s : State) : Out :=
  .next (
    if tileReached s t then
      let T := getTile s t
      let m := val.getLsbD 1
      if m = T.multi then setTile s t (T.setRun (val.getLsbD 0))
      else if !T.run && T.quiet then setTile s t ((T.setMulti m).setRun (val.getLsbD 0))
      else setEvent s t evCtrlRefused
    else s)

/-! ### The other registers -/

/-- A slot descriptor's writable fields (Table 2.10). -/
def Slot.writeWord (v : Slot) (w : Word64) : Slot :=
  { v with
    entry := w.extractLsb' 0 12, qmask := w.extractLsb' 16 16, tag := w.extractLsb' 32 16
    valid := w.getLsbD 48, wide := w.getLsbD 49 }

/-- The slot as a write leaves it: each queue belongs to at most one valid slot, so that one whose mask overlaps that of another
valid slot stays invalid (R57). -/
def Tile.slotWritten (T : Tile) (n : BitVec 2) (w : Word64) : Slot :=
  let v := (T.getSlot n).writeWord w
  { v with valid := v.valid && !(maskOverlaps T n v.qmask) }

/-- A write of TC_SLOTn: ignored for the active slot while RUN = 1 (R69). A slot that stays invalid for its mask sets CFG_REFUSED
as a configuration load does (R57; DEDUCED, log entry 127). -/
def writeSlotAt (s : State) (t : XY) (n : BitVec 2) (w : Word64) : State :=
  let T := getTile s t
  if n = T.active && T.run then s
  else
    let v := T.slotWritten n w
    let s := setTile s t (T.setSlot n v)
    compareMarkers (if w.getLsbD 48 && !v.valid then setEvent s t evCfgRefused else s) t

/-- TC_SLOT_WRITE. -/
def execTcSlotWrite (t : XY) (n : SlotNum) (val : Word64) (s : State) : Out :=
  .next (if tileReached s t then writeSlotAt s t n val else s)

/-- TC_EVENT_WRITE. -/
def execTcEventWrite (t : XY) (val : Word64) (s : State) : Out :=
  .next (if tileReached s t then modTile s t (fun T => T.clearEvents val) else s)

/-- TC_RNG_SEED_HI_WRITE. An MDRAIN has drawn its words at its issue, so the seed follows every earlier draw (R61). -/
def execTcRngSeedHiWrite (t : XY) (val : Word64) (s : State) : Out :=
  .next (if tileReached s t then modTile s t (fun T => T.commitSeed val) else s)

/-- TC_SEND_STALL_WRITE. -/
def execTcSendStallWrite (t : XY) (val : Word64) (s : State) : Out :=
  .next (if tileReached s t then modTile s t (fun T => T.writeSendStall val) else s)

/-- A write by the field controller: every register marked RW, W1C or WO (R67, R257); others ignore it. Slots and TC_CTRL have
operations of their own. -/
def fieldWrite (T : Tile) (off : Nat) (v : Word64) : Tile :=
  let i := off / 8
  if i = 8 then T.clearEvents v
  else if i = 9 then T.writeEventEn v
  else if i = 10 then { T with seedLo := v }
  else if i = 11 then T.commitSeed v
  else if i = 12 then T.writeSendStall v
  else if 256 ≤ i ∧ i < 320 then
    let n := (i - 256) / 4
    let q := T.getQ n
    match (i - 256) % 4 with
    | 0 => T.setQ n { q with base := v.extractLsb' 6 16 }
    | 1 => T.setQ n { q with log2 := v.extractLsb' 0 5, maxmsg := v.extractLsb' 6 21 }
    | _ => T
  else T

/-- REGISTER_WRITE: by the tile's own core, or by the field controller; TC_CTRL has its own command. -/
def execRegisterWrite (t : XY) (own : Bool) (off : Half) (val : Word64) (s : State) : Out :=
  .next (
    if tileReached s t && decide (off.toNat % 8 = 0) then
      let i := off.toNat / 8
      if !own && decide (4 ≤ i) && decide (i < 8) then writeSlotAt s t (BitVec.ofNat 2 (i - 4)) val
      else modTile s t (fun T => if own then tcCoreWrite T off.toNat val else fieldWrite T off.toNat val)
    else s)

/-! ### Scratchpad events -/

/-- The eight words of a 64-byte bank row, given by its line number 24 · row + bank (R50). -/
def rowWords (line : Nat) : List Nat := (List.range 8).map (· + 8 * line)

/-- CORRECTION_WRITEBACK: a row that waits for its write-back is written: its single-bit errors are gone, and a bad word stays
bad (R213). One narrow access. -/
def execCorrectionWriteback (t : XY) (row : Nat) (s : State) : Out :=
  .next (
    if padRuns s t && decide (row < 49152) && (mfind (getTile s t).wback row).isSome then
      modTile s t (fun T => { (T.addAct 3 1) with
        wback := mdel T.wback row
        ecc := T.ecc.filter (fun e => decide (e.1 / 8 ≠ row) || decide (e.2 = .bad)) })
    else s)

/-- Scrub reads a row: one narrow access; a corrected row waits for its write-back, which a newer write discards (R215, R216). -/
def scrubRow (s : State) (t : XY) (line : Nat) (up : Upset) : State :=
  let s := modTile s t (fun T => (if up = .none then T else T.upset (8 * line) up).addAct 3 1)
  let mine := (getTile s t).wback
  let s := (checkRead s t (rowWords line)).1
  modTile s t (fun T =>
    if (mfind T.wback line).isSome && decide (mfind mine line ≠ some false) then { T with wback := mput T.wback line true } else T)

/-- Scrub reads a row of a site that holds no logical tile: a single-bit error is counted and corrected; every uncorrectable word of
the row raises the class at the site, and the compute reset follows (R215, R455). There is no TC_EVENT to set, and the events are
raised as the read finds them (log entry 152). -/
def scrubSpare (s : State) (a : SiteId) (line : Nat) (up : Upset) : State :=
  let S := getSite s a
  let w := 8 * line
  let event (c sv ac : Nat) (s : State) : State := raise s ((blankEvent c sv meEcc ac).atSite s a) a.key
  let s := if up = .single && !(S.bad.contains w) then
      event clSramCe sevCorrected acNone (setSite s a { S with ce := satAdd32 S.ce 1 })
    else if (up = .single || up = .double) && !(S.bad.contains w) then setSite s a { S with bad := S.bad ++ [w] }
    else s
  let n := ((rowWords line).filter (fun w => (getSite s a).bad.contains w)).length
  if n = 0 then s else decideCompute (event clSramUe sevFatal acCompute (addTotal s 0x4800 2 n))

/-- SCRUB_READ: the row at the bank's pointer of the site is read; an upset is met in its first word. Every site scrubs whose CCLK
runs, also one without a logical tile. A zeroise holds the bank (R208). -/
def execScrubRead (site : SiteId) (bank : Nat) (up : Upset) (s : State) : Out :=
  .next (
    if site.valid && decide (bank < 24) && fieldAlive s site.field && siteClock s site
        && decide ((getRow s site.field site.row).kind ≠ .broken) then
      let n := mget 0 (getSite s site).scrub bank
      let line := 24 * (n % 2048) + bank
      let s' := setSite s site { (getSite s site) with scrub := mset 0 (getSite s site).scrub bank (n + 1) }
      match tileAt s site with
      | none => if (getSite s site).zeroLeft ≠ 0 then s else scrubSpare s' site line up
      | some t => if (getTile s t).zeroising then s else scrubRow s' t line up
    else s)

end Sys2Proof.Machine
end

