-- ==== Sys2Proof/Machine/Flit.lean ====
section
/-!
DEFINITION. What a mesh link carries: packet headers (R244), packets in flits (R243, R245), and the lanes of one cycle (R241). A
train is one value of the state (Pkt); what follows is that value as the lanes carry it.
-/
namespace Sys2Proof.Machine

/-- TYPE (Table 9.1). -/
def PktType.code : PktType → Nat
  | .readReq => 0
  | .write => 1
  | .msg => 2
  | .opn => 3
  | .cls => 4
  | .readRsp => 8
  | .writeAck => 9
  | .msgAck => 10
  | .openRsp => 11
  | .closeRsp => 12
  | .error => 13

/-- A tile in a header: y in the upper seven bits, x in the lower. -/
def xyBits (t : XY) : Nat := t.y * 128 + t.x

/-- The type-specific fields, bits [127:76] counted from bit 76 (Table 9.4). A window beyond the 20 bits of WINDOW exceeds every
MAXMSG and travels as the largest value that the field holds (log entry 41). -/
def typeFields (k : Pkt) : Nat :=
  let q := k.queue.toNat <<< 32
  let c := k.ch.toNat <<< 27
  let w := (min k.win 0xFFFFF) <<< 7
  match k.type with
  | .readReq => k.addr % 2 ^ 52
  | .write => k.addr % 2 ^ 52
  | .msg => k.seq.toNat <<< 36 + q + c + (k.len % 2 ^ 21) <<< 6 + b2n k.pin
  | .opn => q + c + w
  | .cls => q + c + w
  | .msgAck => c + w
  | .openRsp => k.status.toNat <<< 44 + c
  | .closeRsp => k.status.toNat <<< 44 + c
  | .error => k.status.toNat <<< 44
  | .readRsp => 0
  | .writeAck => 0

/-- MID: the intermediate or the waypoint; the source on a direct route (Table 9.6). -/
def Pkt.mid (k : Pkt) : XY :=
  match k.route with
  | .valiant m => m
  | .detour m => m
  | _ => k.src

/-- Packets of the train (R245). -/
def Pkt.packets (k : Pkt) : Nat := max 1 (ceilDiv k.payload.length 8192)

/-- The payload of packet p: 8,192 bytes in every packet but the last. -/
def Pkt.part_ (k : Pkt) (p : Nat) : List Byte := (k.payload.drop (8192 * p)).take 8192

/-- The header of packet p (Table 9.3). -/
def Pkt.header (k : Pkt) (p : Nat) : BitVec 128 :=
  let len := if k.type = .readReq then k.len else (k.part_ p).length
  BitVec.ofNat 128 (typeFields k <<< 76 + len <<< 62 + (k.tag % 64) <<< 56 + (k.ctx % 256) <<< 48 + xyBits k.mid <<< 34
    + xyBits k.src <<< 20 + xyBits k.dst <<< 6 + b2n k.sys <<< 5 + k.type.code)

/-- Packet p as bytes: the header, then the payload (R243). -/
def Pkt.packet (k : Pkt) (p : Nat) : List Byte := natBytes 16 (k.header p).toNat ++ k.part_ p

/-- Flit j of packet p: 64 bytes of it, zeros after its last payload byte. -/
def Pkt.flit (k : Pkt) (p j : Nat) : List Byte := padTo 64 (((k.packet p).drop (64 * j)).take 64)

/-- The lanes of one network in one direction in a cycle (Table 9.2), without the 20 that are driven 0. -/
structure Lanes where
  data : List Byte
  crc : Word32
  valid : Bool
  vc : BitVec 2
  head : Bool
  tail : Bool
  trainEnd : Bool
  route : Bool
  poison : Bool
  credit : BitVec 3
  ctlp : Bool
deriving DecidableEq, Repr, Inhabited

/-- The control lanes but CREDIT as a number, in the order of Table 9.2: CRC covers them beside DATA. -/
def Lanes.control (l : Lanes) : Nat :=
  b2n l.valid + 2 * l.vc.toNat + 8 * b2n l.head + 16 * b2n l.tail + 32 * b2n l.trainEnd + 64 * b2n l.route + 128 * b2n l.poison
    + 256 * b2n l.ctlp

/-- Odd parity over CREDIT. -/
def creditParity (v : BitVec 3) : Bool := !(v.getLsbD 0 ^^ v.getLsbD 1 ^^ v.getLsbD 2)

/-- Flit j of packet p carries POISON: a CRC error at an earlier hop, or an uncorrectable word at its source, has poisoned the packet
from that flit or an earlier one on (R242, R483). -/
def Pkt.poisonAt (k : Pkt) (p j : Nat) : Bool := k.badPkts.any (fun x => decide (x.1 = p) && decide (x.2 ≤ j))

/-- The lanes of a cycle that carries flit j of packet p on a virtual channel while its end returns the credits of a mask. The order
in which CRC-32C takes DATA and the control lanes is not given, so the CRC is a function that nothing fixes (log entry 121). -/
def Pkt.lanes (k : Pkt) (p j vc : Nat) (credit : BitVec 3) : Lanes :=
  let n := ceilDiv (16 + (k.part_ p).length) 64
  let l : Lanes := {
    data := k.flit p j, crc := 0, valid := true, vc := BitVec.ofNat 2 vc, head := decide (j = 0), tail := decide (j + 1 = n)
    trainEnd := decide (j = 0) && decide (p + 1 = k.packets)
    route := decide (j = 0) && (match k.route with
      | .detour _ => true
      | _ => false)
    poison := k.poisonAt p j, credit := credit, ctlp := creditParity credit }
  { l with crc := Config.flitCrc l.data l.control }

/-- The lanes of a cycle without a flit: VALID is 0, and the credits go on. What DATA, VC, HEAD, TAIL, TRAIN_END, ROUTE and POISON carry
then R241 does not say: they are 0 here (DESIGN CHOICE, log entry 170). -/
def Lanes.idle (credit : BitVec 3) : Lanes :=
  let l : Lanes := {
    data := zeros 64, crc := 0, valid := false, vc := 0, head := false, tail := false, trainEnd := false, route := false
    poison := false, credit := credit, ctlp := creditParity credit }
  { l with crc := Config.flitCrc l.data l.control }

/-! ### The cycles of a link in a step. The hop from a to b fills the buffers of that hop, and a flit that leaves one frees its entry,
for which the lanes from b to a pulse CREDIT (R241, R246). -/

/-- Flits of a train that have gone into a buffer or past it, and past it, while its head has come so far; none where the buffer is
not on its way now. -/
def Pkt.entered (k : Pkt) (v : Buf) : Option Nat :=
  match k.trail.findIdx? (fun x => decide (x.1 = v)) with
  | none => none
  | some i => some ((k.trail.take (i + 1)).map (·.2)).sum
def Pkt.gone (k : Pkt) (v : Buf) : Option Nat :=
  match k.trail.findIdx? (fun x => decide (x.1 = v)) with
  | none => none
  | some i => some ((k.trail.take i).map (·.2)).sum

/-- The flits of a train that a step moves, counted by `f`, from the first to the one after the last: a buffer that the train has
left behind, or that its end has emptied, has let all pass. -/
def movedFlits (f : Pkt → Option Nat) (k : Pkt) (k' : Option Pkt) : Nat × Nat :=
  match f k, k'.bind f with
  | none, none => (0, 0)
  | none, some m => (0, m)
  | some n, some m => (n, m)
  | some n, none => (n, k.flits)

/-- A train as the lanes show it: of a GDMA.PUT that leaves its tile in the step, with the bytes and the POISON of the scratchpad (R483). -/
def Pkt.shown (s : State) (k : Pkt) : Pkt := (readIn s 0 k).2

/-- The flits that a step brings over the hop of a buffer: train and number. -/
def linkFlits (s s' : State) (rsp : Bool) (v : Buf) : List (Pkt × Nat) :=
  s.mesh.pkts.flatMap (fun e =>
    if e.2.type.rsp = rsp then
      let x := movedFlits (fun k => k.entered v) e.2 (mfind s'.mesh.pkts e.1)
      (List.range (x.2 - x.1)).map (fun i => (e.2.shown s, x.1 + i))
    else [])

/-- The entries of a buffer that a step frees. -/
def freedEntries (s s' : State) (rsp : Bool) (v : Buf) : Nat :=
  (s.mesh.pkts.map (fun e =>
    if e.2.type.rsp = rsp then
      let x := movedFlits (fun k => k.gone v) e.2 (mfind s'.mesh.pkts e.1)
      x.2 - x.1
    else 0)).sum

/-- The cycles of the lanes from a to b on a network in the step from s to s', first to last: the flits that cross, and the credits of
the buffers at a that the step frees, one pulse in a cycle for each virtual channel. -/
def linkLanes (s s' : State) (rsp : Bool) (a b : XY) : List Lanes :=
  let flits := ([0, 1, 2] : List Nat).flatMap (fun vc => (linkFlits s s' rsp ⟨a, b, vc, 0⟩).map (fun x => (x, vc)))
  let free := ([0, 1, 2] : List Nat).map (fun vc => freedEntries s s' rsp ⟨b, a, vc, 0⟩)
  let credit (i : Nat) : BitVec 3 :=
    BitVec.ofNat 3 (((List.range 3).filter (fun v => decide (i < free.getD v 0))).map (fun v => 2 ^ v)).sum
  (List.range (free.foldl max flits.length)).map (fun i =>
    match flits[i]? with
    | some (x, vc) => x.1.lanes (x.2 / 129) (x.2 % 129) vc (credit i)
    | none => Lanes.idle (credit i))

end Sys2Proof.Machine
end

