-- ==== Sys2Proof/Machine/HostCmd.lean ====
section
/-!
DEFINITION. Host commands in progress: rights (R309), the fetching and starting order of a queue pair (R320), and the
movement of data for COPY, LOAD_CONFIG and SIGNAL in segments (R323, R325, R326).
-/
namespace Sys2Proof.Machine

/-! ### Rights and absence -/

/-- A function holds a partition (R309): the PF everything of its port, a VF what is assigned to it. -/
def Part.heldBy (P : Part) (port : HPort) (fn : Nat) : Bool :=
  decide (P.st ≠ .free) && decide (P.port = port) && (decide (fn = 0) || decide (P.fn = fn))

/-- The attachment field and side of a Cuff-H (Table 1.9). -/
def cuffH : HPort → Nat × Side
  | .a => (21, .west)
  | .b => (27, .east)

/-- The edge tile through which a Cuff-H reaches an address (R254, R310). -/
def hostTile (s : State) (p : HPort) (a : Nat) : Option XY := attachFrom s (cuffH p).1 (cuffH p).2 (bits a 15 12)

/-- The port's Cuff-H has lost its field attachment (R39). -/
def degraded (s : State) (p : HPort) : Bool := (hostTile s p 0).isNone

/-- The function exists: the PF, or an enabled VF (R308). -/
def fnExists (s : State) (f : Fn) : Bool := decide (f.fn ≤ (portOf s f.port).vfs)

/-- A Cuff-H answers its mailbox, HC_STATUS and MCTP through its attachment field, or, where that is lost, through the field
controller north or south of it (R330). -/
def managed (s : State) (p : HPort) : Bool :=
  let mgmt : List Nat := match p with
    | .a => [14, 28]
    | .b => [20, 34]
  !(degraded s p) || mgmt.any (fieldAlive s)

/-- Vectors of a function's MSI-X table (Table 12.1). -/
def vectorsOf (fn : Nat) : Nat := if fn = 0 then 2048 else 64

/-! ### PCIe requests to the host (R306, 0x6800) -/

/-- The requests that move n bytes at bus address a: cut at every m bytes, so that none crosses 4 KiB (log entry 16). -/
def busPieces (m : Nat) : Nat → Nat → Nat → List (Nat × Nat)
  | 0, _, _ => []
  | k + 1, a, n =>
    if n = 0 then [] else (a, min n (m - a % m)) :: busPieces m k (a + min n (m - a % m)) (n - min n (m - a % m))

/-- Bytes read from the host are counted. -/
def hostRead (s : State) (port : HPort) (n : Nat) : State := addPortCount s port 2 n

/-- Memory writes of up to 512 bytes, with the requester ID of a function (Table 12.1). -/
def hostWrite (s : State) (f : Fn) (a : Nat) (l : List Byte) (relaxed noSnoop : Bool) : State :=
  forAll (fun s (x : Nat × Nat) => emit s (.hostWrite f x.1 ((l.drop (x.1 - a)).take x.2) relaxed noSnoop))
    (busPieces 512 (l.length + 1) a l.length) (addPortCount s f.port 3 l.length)

/-- The 10-bit tag of the port's next non-posted request: the first that no outstanding one bears, from the one after the last on (the
order is a DESIGN CHOICE, log entry 16). -/
def Port_.nextTag (P : Port_) : Nat :=
  (((List.range 1024).map (fun i => (P.nextRead + i) % 1024)).find?
    (fun t => (mfind P.reads t).isNone && (mfind P.flushes t).isNone)).getD 0

/-- A memory read leaves under the port's next tag. -/
def hostAsk (s : State) (f : Fn) (a n : Nat) (noSnoop : Bool) : State :=
  let tag := (portOf s f.port).nextTag
  modPort (emit s (.hostReadReq f a n tag noSnoop)) f.port (fun P => { P with nextRead := (tag + 1) % 1024 })

/-- Non-posted requests outstanding at the port. -/
def Port_.asked (P : Port_) : Nat := P.reads.length + P.flushes.length
/-- The port may send one more: at most 512 are outstanding (Table 12.1). -/
def Port_.mayAsk (P : Port_) : Bool := decide (P.asked < 512)

/-! ### Queue pairs -/

def getPair (s : State) (port : HPort) (qp : Nat) : Option QPair := mfind (portOf s port).qps qp
def putPair (s : State) (port : HPort) (qp : Nat) (q : QPair) : State :=
  modPort s port (fun P => { P with qps := mput P.qps qp q })
def modPair (s : State) (port : HPort) (qp : Nat) (g : QPair → QPair) : State :=
  match getPair s port qp with
  | none => s
  | some q => putPair s port qp (g q)

def QPair.getCmd (q : QPair) (id : Nat) : Option HostCmd := q.cmds.find? (fun c => c.started && decide (c.id = id))
def QPair.setCmd (q : QPair) (c : HostCmd) (c' : HostCmd) : QPair :=
  { q with cmds := q.cmds.map (fun x => if x = c then c' else x) }

/-- Replace the data movement of a started command. -/
def setRun (s : State) (port : HPort) (qp id : Nat) (r : Option CopyRun) : State :=
  modPair s port qp (fun q => match q.getCmd id with
    | none => q
    | some c => q.setCmd c { c with run := r })

def getRun (s : State) (port : HPort) (qp id : Nat) : Option CopyRun :=
  match getPair s port qp with
  | none => none
  | some q => match q.getCmd id with
    | none => none
    | some c => c.run

/-- The completion ring is full. The indices are kept as free-running counts. -/
def QPair.cqFull (q : QPair) : Bool := decide (2 ^ q.cqLog2 ≤ q.cqTail - q.cqHead)

/-- Fetch from the SQ, in order, up to 64 commands outstanding; not while completions wait for a free slot (R320, R321).
`id` numbers the next. -/
def QPair.fetch : Nat → Nat → QPair → QPair
  | 0, _, q => q
  | n + 1, id, q =>
    match q.posted with
    | [] => q
    | b :: r =>
      if 64 ≤ q.cmds.length || (decide (q.done ≠ []) && q.cqFull) then q
      else QPair.fetch n (id + 1) { q with
        posted := r, sqHead := (q.sqHead + 1) % 2 ^ q.sqLog2, cmds := q.cmds ++ [⟨id, padTo 64 b, false, none, []⟩] }

/-- The reads of n commands from an SQ index on: 64 bytes each, at SQ_BASE + 64 × index, with the pair's function (R319, R322). -/
def askCmds (s : State) (port : HPort) (q : QPair) (n : Nat) : State :=
  forAll (fun s i => hostAsk s ⟨port, q.fn⟩ ((q.sqBase.toNat + 64 * ((q.sqHead + i) % 2 ^ q.sqLog2)) % 2 ^ 64) 64 false) (List.range n) s

/-- The cuff fetches what it may: its reads leave, and what the doorbell has brought are their completions (log entry 16); 64 bytes a
command are counted as read from the host (0x6800). While 512 requests are outstanding it waits. -/
def fetchCmds (s : State) (port : HPort) (qp : Nat) : State :=
  match getPair s port qp with
  | none => s
  | some q =>
    if !(portOf s port).mayAsk then s
    else
      let k := (portOf s port).nextCmd
      let q' := q.fetch 64 k
      let n := q'.cmds.length - q.cmds.length
      let s := askCmds (putPair s port qp q') port q n
      modPort (hostRead s port (64 * n)) port (fun P => { P with nextCmd := k + n })

/-! ### Opcodes (Table 12.9) -/
def opLoadConfig : Nat := 1
def opCopy : Nat := 3
def opStepCommit : Nat := 4
def opFence : Nat := 5
def opSignal : Nat := 6

/-- Operand bytes of a command. -/
def HostCmd.at (c : HostCmd) (i n : Nat) : Nat := fieldOf c.bytes i n

/-- The bytes that a command's opcode leaves reserved are zero (Tables 12.8 and 12.9). -/
def HostCmd.reservedOk (c : HostCmd) : Bool :=
  let zero (i n : Nat) : Bool := decide (c.at i n = 0)
  decide (c.at 1 1 < 4) && zero 5 11 && (
    if c.opcode = opLoadConfig then decide (c.at 31 1 < 2) && decide (c.at 28 2 < 2 ^ 14) && zero 36 28
    else if c.opcode = opLaunch then zero 17 7 && zero 32 32
    else if c.opcode = opCopy then decide (c.at 36 1 < 4) && zero 37 27
    else if c.opcode = opStepCommit then zero 24 40
    else if c.opcode = opFence then decide (c.at 16 1 < 2) && zero 17 47
    else if c.opcode = opSignal then decide (c.at 40 1 < 8) && zero 43 21
    else false)

/-- The partition that a command's context is bound to. -/
def HostCmd.part (s : State) (c : HostCmd) : Option Nat := mfind s.ctxs c.ctx

/-- R322: the status that a command returns before its own rules; none where it passes. -/
def commonCheck (s : State) (port : HPort) (q : QPair) (c : HostCmd) : Option Byte :=
  if !c.reservedOk then some stRange
  else if s.boot.st ≠ .ready || degraded s port then some stNotReady
  else match c.part s with
    | none => some stNotReady
    | some p =>
      let P := getPart s p
      if P.st = .outOfService || P.resetting.isSome then some stNotReady
      else if !(P.heldBy port q.fn) then some stAccess
      else none

/-- An earlier command that holds this one back: a FENCE, or, where it is ORDERED, anything but a LAUNCH (R320). -/
def holdsBack (c e : HostCmd) : Bool :=
  decide (e.opcode = opFence) || (c.ordered && decide (e.opcode ≠ opLaunch))

/-- The next command of the pair to start, where it may start now. -/
def startable (q : QPair) : Option HostCmd :=
  match q.cmds.find? (fun c => !c.started) with
  | none => none
  | some c => if (q.cmds.takeWhile (fun e => e.started)).any (holdsBack c) then none else some c

/-- Fetch, then complete what no row of its own can start: commands whose opcode is undefined (R322). -/
def pairGo (port : HPort) (qp : Nat) : Nat → State → State
  | 0, s => s
  | n + 1, s =>
    let s := fetchCmds s port qp
    match getPair s port qp with
    | none => s
    | some q =>
      match startable q with
      | none => s
      | some c =>
        if 1 ≤ c.opcode && c.opcode ≤ 6 then s else pairGo port qp n (completeCmd s port qp c.id stRange 0)
def pumpPair (s : State) (port : HPort) (qp : Nat) : State := pairGo port qp 65536 s

/-- A command has ended. -/
def endCmd (s : State) (port : HPort) (qp id : Nat) (status : Byte) (result : Nat) : State :=
  pumpPair (completeCmd s port qp id status (BitVec.ofNat 64 result)) port qp

/-! ### Moving data (R325) -/

/-- The 8,192-byte segment i of n bytes: offset and length. -/
def segOf (n i : Nat) : Nat × Nat := (8192 * i, min 8192 (n - 8192 * i))

/-- Inject the pieces of a segment, numbered from `base`; a piece that cannot go is bad. -/
def segPieces (s : State) (port : HPort) (qp id g p : Nat) (wr : Bool) (start : Nat) (data : List Byte) (base : Nat) :
    Nat → List (Nat × Nat) → State × List Nat × Bool
  | _, [] => (s, [], false)
  | i, (a, n) :: r =>
    let x : State × Bool :=
      match endpoint s a, hostTile s port a with
      | some (dst, u), some src =>
        let k := Pkt.owned s (some p) (mkPkt (if wr then .write else .readReq) src dst u)
        inject s { k with
          origin := .cmd port qp id g, source := .host port, piece := base + i, addr := a, len := n
          payload := if wr then (data.drop (a - start)).take n else [] } none
      | _, _ => (noEndpoint s a, false)
    let y := segPieces x.1 port qp id g p wr start data base (i + 1) r
    (y.1, if x.2 then (base + i) :: y.2.1 else y.2.1, y.2.2 || !x.2)

/-- Segment g has ended. -/
def CopyRun.segDone (r : CopyRun) (g : Nat) (bad : Bool) : CopyRun :=
  { r with
    segs := mdel r.segs g
    failed := if bad then some (match r.failed with
      | none => 8192 * g
      | some o => min o (8192 * g)) else r.failed }

/-- The function of a pair: its requester ID goes with the host accesses of its commands (R322). -/
def pairFn (s : State) (port : HPort) (qp : Nat) : Fn :=
  match getPair s port qp with
  | none => ⟨port, 0⟩
  | some q => ⟨port, q.fn⟩

/-- Write a segment's bytes at the destination; those of COPY and LOAD_CONFIG are the pair's bytes moved (R395). -/
def writeSeg (s : State) (port : HPort) (qp id p : Nat) (r : CopyRun) (g : Nat) (data : List Byte) : State :=
  let a := r.dst + 8192 * g
  let s := modPair s port qp (fun q => match q.getCmd id with
    | none => q
    | some c => if c.opcode = opSignal then q else { q with moved := mset 0 q.moved p (mget 0 q.moved p + data.length) })
  if r.dstHost then
    setRun (hostWrite s (pairFn s port qp) a data false false) port qp id (some (r.segDone g false))
  else
    let x := segPieces s port qp id g p true a data 100 0 (pieces a data.length)
    if x.2.1 = [] then setRun x.1 port qp id (some (r.segDone g x.2.2))
    else setRun x.1 port qp id (some { r with segs := mput r.segs g ⟨x.2.1, [], x.2.2⟩ })

/-- Start segment g: read it at the source. From the host the reads of up to 4,096 bytes leave, and the bytes that the row
holds are their completions; a host that does not give them all has answered with an error (log entry 16). -/
def startSeg (s : State) (port : HPort) (qp id p : Nat) (r : CopyRun) (g : Nat) : State :=
  let w := segOf r.len g
  if r.srcHost then
    let s := forAll (fun s (x : Nat × Nat) => hostAsk s (pairFn s port qp) x.1 x.2 false)
      (busPieces 4096 (w.2 + 1) (r.src + w.1) w.2) s
    let data := (r.host.drop w.1).take w.2
    if data.length = w.2 then writeSeg (hostRead s port w.2) port qp id p r g data
    else setRun s port qp id (some (r.segDone g true))
  else
    let x := segPieces s port qp id g p false (r.src + w.1) [] 0 0 (pieces (r.src + w.1) w.2)
    if x.2.1 = [] then setRun x.1 port qp id (some (r.segDone g true))
    else setRun x.1 port qp id (some { r with segs := mput r.segs g ⟨x.2.1, [], x.2.2⟩ })

/-- A segment is still to start; none does after a failure. -/
def CopyRun.more (r : CopyRun) : Bool := r.failed.isNone && decide (8192 * r.next < r.len)

/-- Start segments in ascending order, up to 64 in flight; those of a host source wait while 512 requests are outstanding. -/
def pumpSegs (port : HPort) (qp id p : Nat) : Nat → State → State
  | 0, s => s
  | n + 1, s =>
    match getRun s port qp id with
    | none => s
    | some r =>
      if r.more && decide (r.segs.length < 64) && (!r.srcHost || (portOf s port).mayAsk) then
        pumpSegs port qp id p n (startSeg s port qp id p { r with next := r.next + 1 } r.next)
      else s

/-- The movement is over: what its command does then. -/
def finishRun (s : State) (port : HPort) (qp : Nat) (c : HostCmd) (failed : Option Nat) : State :=
  let s := setRun s port qp c.id none
  match failed with
  | some o => endCmd s port qp c.id stAccess (if c.opcode = opCopy then o else 0)
  | none =>
    if c.opcode = opLoadConfig then
      askCload s ⟨c.at 28 2 % 128, c.at 28 2 / 128⟩
        ⟨0, BitVec.ofNat 2 (c.at 30 1), c.at 32 4, some (port, qp, c.id), false⟩
    else if c.opcode = opSignal then
      let s := match getPair s port qp with
        | none => s
        | some q => if (c.at 40 1).testBit 2 then vectorOne s ⟨port, q.fn⟩ (c.at 41 2) else s
      endCmd s port qp c.id stOk 0
    else endCmd s port qp c.id stOk 0

/-- Every byte of a COPY to the host is written: a zero-length read flushes the writes, and the COPY completes when it has
returned (Table 12.9). Where 512 requests are outstanding it waits for a tag. -/
def startFlush (s : State) (port : HPort) (qp id : Nat) (r : CopyRun) : State :=
  let P := portOf s port
  if r.flushing || !P.mayAsk then s
  else
    let s := hostAsk s (pairFn s port qp) r.dst 0 false
    let s := modPort s port (fun P' => { P' with flushes := mput P'.flushes P.nextTag (qp, id) })
    setRun s port qp id (some { r with flushing := true })

/-- Start what can start, and finish what has ended. -/
def driveRun (s : State) (port : HPort) (qp id : Nat) : State :=
  match getPair s port qp with
  | none => s
  | some q =>
    match q.getCmd id with
    | none => s
    | some c =>
      match c.run, c.part s with
      | some r, some p =>
        let s := pumpSegs port qp id p (ceilDiv r.len 8192) s
        match getRun s port qp id with
        | none => s
        | some r =>
          if r.more || decide (r.segs ≠ []) then s
          else if c.opcode = opCopy && r.dstHost && r.failed.isNone then startFlush s port qp id r
          else finishRun s port qp c r.failed
      | _, _ => s

/-- Begin a movement for a command that has started. -/
def beginRun (s : State) (port : HPort) (qp id src dst len : Nat) (srcHost dstHost : Bool) (host : List Byte) : State :=
  driveRun (setRun s port qp id (some ⟨src, dst, len, srcHost, dstHost, host, 0, [], none, false⟩)) port qp id

/-- The flushing read of a COPY has returned, with data or an error; a tag is free for the next (log entry 133). -/
def endFlush (s : State) (port : HPort) (tag : Nat) (bad : Bool) : State :=
  match mfind (portOf s port).flushes tag with
  | none => s
  | some e =>
    let s := modPort s port (fun P => { P with flushes := mdel P.flushes tag })
    match (getPair s port e.1).bind (fun q => q.getCmd e.2) with
    | none => s
    | some c => finishRun s port e.1 c (if bad then some 0 else none)

/-- What waits for a tag goes on: fetches, and movements that read the host or flush. -/
def flushNext (s : State) (port : HPort) : State :=
  let s := forAll (fun s (e : Nat × QPair) => pumpPair s port e.1) (portOf s port).qps s
  forAll (fun s (e : Nat × QPair) => forAll (fun s (c : HostCmd) =>
    match c.run with
    | some r => if r.segs = [] && !r.flushing then driveRun s port e.1 c.id else s
    | none => s) e.2.cmds s) (portOf s port).qps s

/-- A piece of a segment is answered: data of a read, or the acknowledgement of a write. -/
def copyPiece (s : State) (port : HPort) (qp id g piece : Nat) (bad : Bool) (data : List Byte) : State :=
  match getPair s port qp with
  | none => s
  | some q =>
    match q.getCmd id with
    | none => s
    | some c =>
      match c.run, c.part s with
      | some r, some p =>
        match mfind r.segs g with
        | none => s
        | some v =>
          if v.open_.contains piece then
            let v : SegRun := ⟨v.open_.erase piece, if bad || 100 ≤ piece then v.data else mput v.data piece data, v.bad || bad⟩
            if v.open_ ≠ [] then setRun s port qp id (some { r with segs := mput r.segs g v })
            else if v.bad || 100 ≤ piece then
              driveRun (setRun s port qp id (some (r.segDone g v.bad))) port qp id
            else driveRun (writeSeg s port qp id p r g (v.data.flatMap (fun e => e.2))) port qp id
          else s
      | _, _ => s

end Sys2Proof.Machine
end

