-- ==== Sys2Proof/Machine/XdtFrame.lean ====
section
/-!
DEFINITION. The layout of an XDT frame on its port (R10, R282, R283, R294; Tables 11.2 to 11.5).
-/
namespace Sys2Proof.Machine

/-! ### Opcodes (Table 11.4) -/
def xMsg : Nat := 0x01
def xWrite : Nat := 0x02
def xReadReq : Nat := 0x03
def xReadRsp : Nat := 0x04
def xAck : Nat := 0x10
def xNak : Nat := 0x11
def xCnp : Nat := 0x12

/-- WRITE and READ_REQ carry the address word. -/
def hasAddress (op : Nat) : Bool := decide (op = xWrite) || decide (op = xReadReq)

/-- The XDT header (Table 11.3). -/
def xdtHeader (o : XOut) : List Byte :=
  let f := o.fr
  let flags := b2n f.last + 2 * b2n f.restart + 4 * b2n f.ctrl + 8 * b2n f.pin + 16 * b2n f.retx
  [1, BitVec.ofNat 8 o.op, BitVec.ofNat 8 flags, BitVec.ofNat 8 (f.ch % 32)]
    ++ natBytes 4 f.pkey ++ natBytes 2 f.ddev ++ natBytes 2 f.sdev ++ natBytes 2 (f.dtile.x % 128 + 128 * (f.dtile.y % 128))
    ++ [BitVec.ofNat 8 (f.dqueue % 16), 0]
    ++ natBytes 4 f.psn ++ natBytes 4 f.apsn ++ natBytes 2 f.msgid ++ natBytes 3 f.offset ++ natBytes 3 f.length

/-- The XDT header, the address word and the payload: what the ICRC covers (R282). -/
def xdtBody (o : XOut) : List Byte :=
  xdtHeader o ++ (if hasAddress o.op then natBytes 8 (o.fr.addr % 2 ^ 52) else []) ++ o.fr.payload

/-- One bit of the CRC-32 of IEEE 802.3 (the Ethernet FCS). -/
def fcsBits : Nat → Nat → Nat
  | 0, c => c
  | n + 1, c => fcsBits n (if c % 2 = 1 then (c / 2) ^^^ 0xEDB88320 else c / 2)
def fcsGo : List Byte → Nat → Nat
  | [], c => c
  | b :: r, c => fcsGo r (fcsBits 8 (c ^^^ b.toNat))
def ethFcs (l : List Byte) : Nat := fcsGo l 0xFFFFFFFF ^^^ 0xFFFFFFFF

/-- The sum of 16-bit words, most significant byte first. -/
def wordSum : List Byte → Nat
  | a :: b :: r => 256 * a.toNat + b.toNat + wordSum r
  | [a] => 256 * a.toNat
  | [] => 0
/-- The Internet checksum of bytes, 0 sent as all ones as UDP over IPv6 requires. -/
def netSum (l : List Byte) : Nat :=
  let v := wordSum l
  let v := v % 65536 + v / 65536
  let v := v % 65536 + v / 65536
  if v = 0xFFFF then 0xFFFF else 0xFFFF - v

/-- The IPv6 link-local address of a MAC address by modified EUI-64. -/
def linkLocal (mac : Nat) : List Byte :=
  let m := beBytes 6 mac
  [0xFE, 0x80, 0, 0, 0, 0, 0, 0, byteAt m 0 ^^^ 2, byteAt m 1, byteAt m 2, 0xFF, 0xFE, byteAt m 3, byteAt m 4, byteAt m 5]

/-- MAC address of an Ethernet port (R281). -/
def portMac (e : Nat) : Nat := Config.baseMac + 1 + e

/-- The address that a port sends from: its own of 0x7004, or the link-local one while that is zero (Table 11.10). -/
def portIp (s : State) (e : Nat) : List Byte :=
  match liveEntry s 0x7004 (e + 1) with
  | some l => if allZero l then linkLocal (portMac e) else padTo 16 l
  | none => linkLocal (portMac e)

/-- The connection's VLAN field sends a tag (Table 11.5). -/
def Conn.tagged (c : Conn) : Bool := (byteAt c.desc 15).getLsbD 7

/-- TCI of the connection's tag as IEEE 802.1Q lays it out: PCP in [15:13], DEI 0, VID in [11:0] (R10, R282, Table 11.5). -/
def Conn.tci (c : Conn) : Nat :=
  let v := fieldOf c.desc 14 2
  v / 4096 % 8 * 8192 + v % 4096

/-- The Ethernet header, with the connection's tag. -/
def ethHeader (e : Nat) (c : Conn) : List Byte :=
  padTo 6 ((c.desc.drop 8).take 6) ++ beBytes 6 (portMac e)
    ++ (if c.tagged then beBytes 2 0x8100 ++ beBytes 2 c.tci else [])
    ++ beBytes 2 (if c.routed then 0x86DD else 0x88B5)

/-- The IPv6 and UDP headers of routed mode over n bytes of XDT: DSCP and ECT(0), the flow label and the source port from the
connection id, hop limit 64 (Table 11.2, R294). -/
def routedHeaders (s : State) (id : Nat) (c : Conn) (data : List Byte) : List Byte :=
  let src := portIp s (id / 256)
  let dst := padTo 16 ((c.desc.drop 16).take 16)
  let n := 8 + data.length
  let class_ := 4 * ((byteAt c.desc 36).toNat % 64) + 2
  let ports := beBytes 2 (0xC000 + id) ++ beBytes 2 0xC4E1 ++ beBytes 2 n
  let sum := netSum (src ++ dst ++ beBytes 4 n ++ beBytes 4 17 ++ ports ++ [0, 0] ++ data)
  beBytes 4 (6 * 2 ^ 28 + class_ * 2 ^ 20 + id) ++ beBytes 2 n ++ [17, 64] ++ src ++ dst ++ ports ++ beBytes 2 sum

/-- The bytes of a frame as connection id sends it (Table 11.2). -/
def wireImage (s : State) (id : Nat) (c : Conn) (o : XOut) : List Byte :=
  let data := xdtBody o ++ natBytes 4 (crc32c (xdtBody o))
  let l := ethHeader (id / 256) c ++ (if c.routed then routedHeaders s id c data else []) ++ data
  l ++ natBytes 4 (ethFcs l)

/-- Bytes of a frame on the port, without preamble and gap (Table 11.2). -/
def frameBytes (tagged routed : Bool) (o : XOut) : Nat :=
  14 + (if tagged then 4 else 0) + (if routed then 48 else 0) + 32 + (if hasAddress o.op then 8 else 0) + o.fr.payload.length + 8

end Sys2Proof.Machine
end

