-- ==== Sys2Proof/Machine/XdtOps.lean ====
section
/-!
DEFINITION. XDT connections: frames and messages (R282 to R285), sending and acknowledging (R288 to R290, R293), and the
control records (R285).
-/
namespace Sys2Proof.Machine

/-- The XW49's device id (0x7001:01). -/
def deviceId (s : State) : Nat := liveNat s 0x7001 1 0xFFFF

/-- A precedes b (R288). -/
def psnBefore (a b : Word32) : Bool := decide (1 ≤ (b - a).toNat) && decide ((b - a).toNat < 2 ^ 31)

/-- APSN of the frames that a connection sends: EXP_PSN, but no further than the LAST frame of a WRITE message that is not
yet wholly acknowledged in the mesh, be it under way or still waiting (R289, R301). -/
def Conn.ackPsn (c : Conn) : Word32 :=
  match c.serves.find? (fun v => v.wr) with
  | some v => v.lastPsn
  | none => match c.partial_.find? (fun o => decide (o.op = xWrite) && o.fr.last) with
    | some o => BitVec.ofNat 32 o.fr.psn
    | none => c.expPsn

/-- A frame's fields that the connection decides, everything else absent. -/
def blankFrame (s : State) (c : Conn) : XFrame :=
  { last := false, restart := false, ctrl := false, pin := false, retx := false, ch := 0, pkey := c.pkey
    ddev := c.remoteDev, sdev := deviceId s, dtile := ⟨0, 0⟩, dqueue := 0, psn := 0, apsn := c.ackPsn.toNat, msgid := 0
    offset := 0, length := 0, addr := 0, payload := [], arrival := .good, corrected := 0
    tagged := c.tagged, routed := c.routed, ce := false }

/-- Counters of 0x7005: 0 frames sent, 1 received, 2 bytes sent, 3 received, 4 FCS errors, 5 and 6 codewords, 7 PAUSE. -/
def addEth (s : State) (e i n : Nat) : State :=
  let v := mget {} s.xdt.eths e
  { s with xdt := { s.xdt with eths := mset {} s.xdt.eths e { v with counters := mset 0 v.counters i (mget 0 v.counters i + n) } } }

/-- A frame of another protocol that a port sends or receives: 0x7005 counts it and its bytes, of which the spec gives no number (free,
log entry 154). -/
def countOther (s : State) (e : Nat) (sent : Bool) : State :=
  let x := freeVal s
  let i := if sent then 0 else 1
  addEth (addEth x.2 e i 1) e (i + 2) x.1

/-- A frame as it leaves on the connection's port. -/
def frameOut (s : State) (c : Nat) (o : XOut) : Output := .frame (c / 256) o.op o.fr (wireImage s c (getConn s c) o)

/-- Put a frame on the connection's port (counters of 0x7005). -/
def emitFrame (s : State) (c : Nat) (o : XOut) : State :=
  let e := c / 256
  let C := getConn s c
  addEth (addEth (emit s (frameOut s c o)) e 0 1) e 2 (frameBytes C.tagged C.routed o)

/-- An ACK, which counts as the acknowledgement of what has been taken (R289). -/
def sendXAck (s : State) (c : Nat) (restart : Bool) : State :=
  let s := emitFrame s c ⟨xAck, { blankFrame s (getConn s c) with restart := restart }⟩
  modConn s c (fun C => { C with unackedRx := 0 })

/-! ### Messages (R284) -/

/-- The data frames of a message: one at least; only the last has LAST set. -/
def messageFrames (op : Nat) (fr : XFrame) (payload : List Byte) : List XOut :=
  let n := Nat.max 1 (ceilDiv payload.length 8192)
  (List.range n).map (fun i => ⟨op, { fr with
    last := decide (i + 1 = n), offset := 8192 * i, payload := (payload.drop (8192 * i)).take 8192 }⟩)

/-- Queue a message's frames; they take their PSNs as they are sent. -/
def queueMessage (s : State) (c : Nat) (op : Nat) (fr : XFrame) (payload : List Byte) : State :=
  modConn s c (fun C => { C with fresh := C.fresh ++ messageFrames op fr payload })

/-! ### Control records (R285) -/

/-- The 16 bytes of a control record between a local and a remote tile: a mesh header of Table 9.3 for the context that owns the
connection, of a direct train without payload. -/
def ctrlRecord (s : State) (c : Nat) (ty : PktType) (src dst : XY) (tag queue ch win status : Nat) : List Byte :=
  let k := { Pkt.owned s (some (getConn s c).part) (mkPkt ty src dst .tile) with
    tag := tag, queue := BitVec.ofNat 4 queue, ch := BitVec.ofNat 5 ch, win := win, status := BitVec.ofNat 8 status }
  natBytes 16 (k.header 0).toNat

/-- Send a control record on a connection: CH, DTILE and DQUEUE of its frame are those of the record (Table 11.3). MSGID names the message
that an ERROR answers (R285); what it is of any other record the spec does not say, and it is 0 (DESIGN CHOICE, log entry 172). -/
def sendRecord (s : State) (c : Nat) (msgid : Nat) (l : List Byte) : State :=
  let v := leNat l
  queueMessage s c xMsg { blankFrame s (getConn s c) with
    ctrl := true, msgid := msgid, length := 16, ch := bits v 107 103, dtile := ⟨bits v 12 6, bits v 19 13⟩, dqueue := bits v 111 108 } l

/-! ### Sending side -/

/-- Bits of a frame on the wire, with preamble and gap of 20 bytes (R293). -/
def Conn.bitsOf (c : Conn) (o : XOut) : Nat := 8 * (frameBytes c.tagged c.routed o + 20)
/-- GTC ns at which pacing lets the next frame start: the last frame's bits at RATE Mb/s after its start. A RATE that has changed since
counts (Table 11.8, steps 5 to 7). -/
def Conn.paced (c : Conn) : Nat := c.started + ceilDiv (1000 * c.wireBits) c.rate

/-- A frame leaves with the current APSN; pacing counts from its start, and the port has served the connection. -/
def sendData (s : State) (c : Nat) (o : XOut) : State :=
  let o : XOut := ⟨o.op, { o.fr with apsn := (getConn s c).ackPsn.toNat }⟩
  let s := addTotal (emitFrame s c o) 0x7000 1 1
  let s := modConn s c (fun C => { C with started := s.clk.gtc, wireBits := C.bitsOf o })
  let e := mget {} s.xdt.eths (c / 256)
  { s with xdt := { s.xdt with eths := mset {} s.xdt.eths (c / 256) { e with served := c % 256 + 1 } } }

/-- The connection may send a data frame now: a retransmission, or a new frame within the window, and pacing allows it (R293). -/
def maySend (s : State) (c : Conn) : Bool :=
  decide (c.st = .opened) && decide (c.paced ≤ s.clk.gtc)
    && (decide (c.resend ≠ []) || (decide (c.fresh ≠ []) && decide (c.unacked.length < c.window)))

/-- The connection of a port whose turn it is: the first that may send after the one served last (R293). -/
def sendTurn (s : State) (e : Nat) : Option Nat :=
  let last := (mget {} s.xdt.eths e : Eth).served
  ((List.range 256).map (fun i => 256 * e + (last + i) % 256)).find? (fun c => maySend s (getConn s c))

/-- TYPE of a control record. -/
def recordType (l : List Byte) : Nat := leNat l % 16

/-- The ERROR record for a failed WRITE has been acknowledged: the peer knows, so its LAST frame may be acknowledged too (R301, log
entry 153). -/
def Conn.errorTold (c : Conn) (o : XOut) : Conn :=
  match c.serves.find? (fun v => v.wr && v.failed && decide (v.open_ = []) && decide (v.msgid = o.fr.msgid)) with
  | some v =>
    if o.fr.ctrl && decide (recordType o.fr.payload = 13) then
      { c with serves := c.serves.erase v, unackedRx := Nat.max c.unackedRx 1 }
    else c
  | none => c

/-- An APSN passes frames: they are acknowledged; progress resets the timer (R290); a WRITE's LAST frame completes the
mesh request it carried (R301). -/
def advanceAck (s : State) (c : Nat) (apsn : Word32) : State :=
  let C := getConn s c
  let gone (o : XOut) : Bool := psnBefore (BitVec.ofNat 32 o.fr.psn) apsn
  let acked := C.unacked.filter gone
  if acked = [] then s
  else
    let s := setConn s c { C with
      unacked := C.unacked.filter (fun o => !(gone o)), resend := C.resend.filter (fun o => !(gone o))
      expiries := 0, timerUs := 64 }
    forAll (fun s (o : XOut) =>
      if o.op = xWrite && o.fr.last then
        match mfind (getConn s c).requests o.fr.msgid with
        | none => s
        | some k => respond (modConn s c (fun C => { C with requests := mdel C.requests o.fr.msgid })) k .writeAck stOk [] false
      else modConn s c (fun C => C.errorTold o)) acked s

/-- RATE within its bounds (Table 11.6). -/
def boundRate (r : Nat) : Nat := Nat.min 800000 (Nat.max 3125 r)

/-- CNP or NAK: 7/8 of RATE, at most once per 50 microseconds; the 55 microseconds of Table 11.6 begin anew. A rate that comes to no whole
number of Mb/s, here and at an expiry, is rounded down (DESIGN CHOICE, log entry 173). -/
def cutRate (s : State) (c : Nat) : State :=
  modConn s c (fun C =>
    let C := { C with quiet := s.clk.gtc }
    let ok := match C.lastCut with
      | none => true
      | some g => decide (g + 50000 ≤ s.clk.gtc)
    if ok then { C with rate := boundRate (C.rate * 7 / 8), lastCut := some s.clk.gtc } else C)

/-- Mark frames of the unacknowledged ones for retransmission, in PSN order, once each. -/
def Conn.markResend (c : Conn) (f : XOut → Bool) : Conn :=
  { c with resend := c.resend ++ (c.unacked.filter f).filter (fun o => !(c.resend.any (fun r => decide (r.fr.psn = o.fr.psn)))) }

/-! ### RESTART (R292) -/

/-- A RESTART is received: in OPEN or RESTARTING the connection starts afresh and enters OPEN. 0x7000:0A counts the restart here,
when the connection reaches OPEN, and not when it enters RESTARTING: R292 does not say at which (DESIGN CHOICE, log entry 129). The
credit of this device's channels over the connection stays as it is: R292's list does not name it, though Table 11.9 speaks of
credits lost (DESIGN CHOICE, log entry 155). -/
def takeRestart (s : State) (c : Nat) : State :=
  let st := (getConn s c).st
  if st = .opened || st = .restarting then
    let s := failRequests s c
    let s := modConn s c (fun C => { C.cleared with st := .opened, rate := startRate, quiet := s.clk.gtc })
    let s := addTotal s 0x7000 10 1
    if st = .opened then sendXAck s c true else s
  else s

end Sys2Proof.Machine
end

