-- ==== Sys2Proof/Machine/Xdt.lean ====
section
/-!
DEFINITION. XDT and the Ethernet ports: receiving frames, serving the peer's requests, timers, apertures and time (R280 to
R305).
-/
namespace Sys2Proof.Machine

/-! ### Serving the peer's WRITE and READ_REQ (R296, R300, R301) -/

/-- The tile at which a connection's traffic enters and leaves the mesh (R295). -/
def connTile (s : State) (c : Nat) : Option XY := nthCyc (cuffColumns s (connSouth c)) c

/-- The packets of a message: up to 8,192 bytes each, cut where the endpoint may change (R255). -/
def servePieces (a n : Nat) : List (Nat × Nat) := (segments n).flatMap (fun g => pieces (a + g.1) g.2)

/-- An ERROR control record that names the peer's message (R285). The peer's requesting tile is not in the frames of a
WRITE or READ_REQ, and the record's DST is zero (log entry 11). -/
def sendError (s : State) (c : Nat) (msgid : Nat) : State :=
  sendRecord s c msgid (ctrlRecord s c .error ((connTile s c).getD ⟨0, 0⟩) ⟨0, 0⟩ 0 0 0 0 stAccess.toNat)

/-- One gap is told of at most once per 16 microseconds (R289). The NAK's APSN would acknowledge the LAST frame of a WRITE whose
bytes are not yet in place, so it waits for that WRITE (R301; DEDUCED, log entry 130). -/
def nakDue (s : State) (C : Conn) : Bool :=
  decide (C.buffered ≠ []) && decide (C.ackPsn = C.expPsn) && (match C.lastNak with
    | some (g, p) => !(decide (p = C.expPsn) && decide (s.clk.gtc < g + 16000))
    | none => true)

/-- Consecutive PSNs missing from EXP_PSN. -/
def Conn.missing (c : Conn) : Nat :=
  c.buffered.foldl (fun n e => Nat.min n (BitVec.ofNat 32 e.1 - c.expPsn).toNat) 4096

/-- A NAK for the gap at EXP_PSN (R289). -/
def sendXNak (s : State) (c : Nat) : State :=
  let C := getConn s c
  if nakDue s C then
    let f := { blankFrame s C with apsn := C.expPsn.toNat, length := C.missing }
    let s := addTotal (emitFrame s c ⟨xNak, f⟩) 0x7000 4 1
    modConn s c (fun C => { C with lastNak := some (s.clk.gtc, C.expPsn) })
  else s

/-- Every piece has completed: the READ_RSP message or the ERROR record goes out; a WRITE's LAST frame may now be acknowledged, that of
a failed one not before the peer has its ERROR record (R301, log entry 153). -/
def finishServe (s : State) (c : Nat) (v : XServe) : State :=
  let rest (C : Conn) : List XServe := C.serves.filter (fun w => !(decide (w.msgid = v.msgid) && decide (w.lastPsn = v.lastPsn)))
  if v.failed then
    sendError (modConn s c (fun C => { C with
      serves := if v.wr then C.serves.map (fun w =>
          if w.msgid = v.msgid ∧ w.lastPsn = v.lastPsn then { w with open_ := [], failed := true } else w)
        else rest C })) c v.msgid
  else
    let s := modConn s c (fun C => { C with
      serves := rest C, unackedRx := if v.wr then Nat.max C.unackedRx 1 else C.unackedRx })
    if v.wr then s
    else queueMessage s c xReadRsp { blankFrame s (getConn s c) with msgid := v.msgid, length := v.len }
      (v.data.flatMap (fun e => e.2))

/-- One piece has completed. -/
def pieceServed (s : State) (c msgid piece : Nat) (bad : Bool) (data : List Byte) : State :=
  match (getConn s c).serves.find? (fun v => decide (v.msgid = msgid) && v.open_.contains piece) with
  | none => s
  | some v =>
    let v' := { v with
      open_ := v.open_.erase piece, failed := v.failed || bad
      data := if v.wr || bad then v.data else mput v.data piece data }
    let s := modConn s c (fun C => { C with serves := C.serves.map (fun w => if w = v then v' else w) })
    if v'.open_ = [] then finishServe s c v' else s

/-- Inject the pieces. Only scratchpad and DRAM may be reached; the owner's rights are checked at the endpoint (R300). -/
def injectPieces (s : State) (c : Nat) (src : XY) (v : XServe) (payload : List Byte) : Nat → List (Nat × Nat) → State
  | _, [] => s
  | i, (a, n) :: r =>
    let bad := pieceServed s c v.msgid i true []
    let s := match endpoint s a with
      | none => bad
      | some (dst, u) =>
        if u = .tile || u = .dram then
          let k := Pkt.owned s (some (getConn s c).part) (mkPkt (if v.wr then .write else .readReq) src dst u)
          let x := inject s { k with
            origin := .xdt c v.msgid, source := .cuffN (connSouth c), piece := i, addr := a, len := n
            payload := if v.wr then (payload.drop (a - v.addr)).take n else [] } none
          if x.2 then x.1 else pieceServed x.1 c v.msgid i true []
        else bad
    injectPieces s c src v payload (i + 1) r

def startServe (s : State) (c : Nat) (wr : Bool) (fr : XFrame) (lastPsn : Nat) (payload : List Byte) : State :=
  let n := if wr then payload.length else fr.length
  let ps := servePieces fr.addr n
  let v : XServe := ⟨fr.msgid, wr, BitVec.ofNat 32 lastPsn, fr.addr, n, List.range ps.length, false, []⟩
  let s := modConn s c (fun C => { C with serves := C.serves ++ [v] })
  match connTile s c with
  | none => finishServe s c { v with failed := true }
  | some src => if ps = [] then finishServe s c v else injectPieces s c src v payload 0 ps

/-! ### Messages received (R296 to R300) -/

/-- A tile of the connection's partition, not in a hole. -/
def peerTileOk (s : State) (c : Nat) (t : XY) : Bool := tileLive s t && decide (partOf s t = some (getConn s c).part)

/-- A train from a connection to a tile. -/
def connPkt (s : State) (c : Nat) (ty : PktType) (src dst : XY) : Pkt :=
  { Pkt.owned s (some (getConn s c).part) (mkPkt ty src dst .tile) with
    remote := some (BitVec.ofNat 16 (getConn s c).remoteDev, c), source := .cuffN (connSouth c) }

/-- A queue message. Its frames do not name the sending tile: the record's SOURCE is a free value (log entry 3). -/
def deliverMsg (s : State) (c : Nat) (fr : XFrame) (payload : List Byte) : State :=
  match connTile s c with
  | none => addTotal s 0x2800 6 1
  | some src =>
    if peerTileOk s c fr.dtile then
      let x := freeVal s
      let k := { connPkt x.2 c .msg src fr.dtile with
        far := ⟨x.1 % 128, x.1 / 128 % 128⟩, queue := BitVec.ofNat 4 fr.dqueue, ch := BitVec.ofNat 5 fr.ch, pin := fr.pin
        seq := BitVec.ofNat 16 fr.msgid, len := payload.length, payload := payload }
      (inject x.2 k none).1
    else addTotal s 0x2800 6 1

/-- A control record (R285). -/
def deliverCtrl (s : State) (c : Nat) (fr : XFrame) (l : List Byte) : State :=
  let v := leNat l
  let ty := v % 16
  let dst : XY := ⟨bits v 12 6, bits v 19 13⟩
  let far : XY := ⟨bits v 26 20, bits v 33 27⟩
  let tag := bits v 61 56
  let ch := BitVec.ofNat 5 (bits v 107 103)
  let win := bits v 102 83
  let status := BitVec.ofNat 8 (bits v 127 120)
  let queue := BitVec.ofNat 4 (bits v 111 108)
  match connTile s c with
  | none => s
  | some src =>
    let go (ty : PktType) : State :=
      (inject s { connPkt s c ty src dst with
        far := far, tag := tag, ch := ch, win := win, status := status, queue := queue } none).1
    if ty = 13 then
      match mfind (getConn s c).requests fr.msgid with
      | none => s
      | some k => respond (modConn s c (fun C => { C with requests := mdel C.requests fr.msgid })) k .error status [] false
    else if !(peerTileOk s c dst) then
      if ty = 3 then
        sendRecord (addTotal s 0x2800 4 1) c 0 (ctrlRecord s c .openRsp dst far tag 0 ch.toNat 0 stRange.toNat)
      else s
    else if ty = 3 then go .opn
    else if ty = 4 then go .cls
    else if ty = 10 then go .msgAck
    else if ty = 11 then go .openRsp
    else if ty = 12 then go .closeRsp
    else s

/-- A message is complete: its opcode, its first frame's header, the PSN of its LAST frame and its bytes. -/
def deliverMessage (s : State) (c op : Nat) (fr : XFrame) (lastPsn : Nat) (payload : List Byte) : State :=
  if op = xMsg then (if fr.ctrl then deliverCtrl s c fr payload else deliverMsg s c fr payload)
  else if op = xWrite then startServe s c true fr lastPsn payload
  else if op = xReadReq then startServe s c false fr lastPsn []
  else if op = xReadRsp then
    match mfind (getConn s c).requests fr.msgid with
    | none => s
    | some k => respond (modConn s c (fun C => { C with requests := mdel C.requests fr.msgid })) k .readRsp stOk payload false
  else s

/-- Frames of one message. -/
def sameMessage (a b : XOut) : Bool :=
  decide (a.op = b.op) && decide (a.fr.msgid = b.fr.msgid) && decide (a.fr.ch = b.fr.ch) && (a.fr.ctrl == b.fr.ctrl)
    && decide (a.fr.dtile = b.fr.dtile)

/-- The frames of the first message, up to its LAST one; none while it is not complete. -/
def firstMessage (l : List XOut) : Option (XOut × XOut × List XOut) :=
  match l with
  | [] => none
  | h :: _ =>
    let fs := l.filter (sameMessage h)
    match fs.findIdx? (fun o => o.fr.last) with
    | none => none
    | some i => (fs[i]?).map (fun z => (h, z, fs.take (i + 1)))

/-- A message waits for those before it that are still served: messages of a connection take effect in PSN order (R301). -/
def messageWaits (c : Conn) (op : Nat) : Bool :=
  c.serves.any (fun v => decide (v.open_ ≠ []) && (v.wr || decide (op = xWrite)))

/-- Complete messages enter the mesh in the order of their first frames (R296), each once those before it have taken effect. -/
def deliverAll (c : Nat) : Nat → State → State
  | 0, s => s
  | n + 1, s =>
    match firstMessage (getConn s c).partial_ with
    | none => s
    | some (h, z, fs) =>
      if messageWaits (getConn s c) h.op then s
      else
      let s := modConn s c (fun C => { C with partial_ := C.partial_.filter (fun o => !(fs.contains o)) })
      deliverAll c n (deliverMessage s c h.op h.fr z.fr.psn (fs.flatMap (fun o => o.fr.payload)))

/-- The same after a piece: what waited for the message goes on, and a NAK that waited is sent. -/
def servePiece (s : State) (c msgid piece : Nat) (bad : Bool) (data : List Byte) : State :=
  let s := pieceServed s c msgid piece bad data
  sendXNak (deliverAll c (getConn s c).partial_.length s) c

/-! ### Receiving a data frame (R283, R286, R288, R289, R294) -/

/-- Payload bytes held for reordering and assembly in a Cuff-N, of 64 MiB (R296). -/
def heldBytes (s : State) (south : Bool) : Nat :=
  let sizes (l : List XOut) : Nat := l.foldl (fun n o => n + o.fr.payload.length) 0
  s.xdt.conns.foldl (fun n e =>
    if connSouth e.1 = south then n + sizes (e.2.buffered.map (·.2)) + sizes e.2.partial_ else n) 0

/-- Take frames in order: this one, then every buffered frame that follows (R288). An ACK goes out after 16 (R289). -/
def takeFrames (c : Nat) : Nat → State → XOut → State
  | fuel, s, o =>
    let s := modConn s c (fun C => { C with
      expPsn := C.expPsn + 1, unackedRx := C.unackedRx + 1, partial_ := C.partial_ ++ [o]
      buffered := mdel C.buffered C.expPsn.toNat })
    let s := if 16 ≤ (getConn s c).unackedRx then sendXAck s c false else s
    match fuel with
    | 0 => s
    | n + 1 => match mfind (getConn s c).buffered (getConn s c).expPsn.toNat with
      | none => s
      | some o' => takeFrames c n s o'

/-- A CNP for a frame marked CE, in routed mode, at most one per 50 microseconds (R294). -/
def answerCe (s : State) (c : Nat) (ce : Bool) : State :=
  let C := getConn s c
  let due := match C.lastCnp with
    | none => true
    | some g => decide (g + 50000 ≤ s.clk.gtc)
  if ce && C.routed && due then
    modConn (emitFrame s c ⟨xCnp, blankFrame s C⟩) c (fun C => { C with lastCnp := some s.clk.gtc })
  else s

/-- The enabled connection of a port that a frame belongs to (R286): where several have its REMOTE_DEV and PKEY, for which no rule
says, the one with the lowest id (DESIGN CHOICE, log entry 174). -/
def matchConn (s : State) (eth : Nat) (fr : XFrame) : Option Nat :=
  if fr.ddev = deviceId s then
    (s.xdt.conns.find? (fun e => decide (e.1 / 256 = eth) && e.2.enabled && decide (e.2.remoteDev = fr.sdev)
      && decide (e.2.pkey = fr.pkey))).map (·.1)
  else none

/-- The port receives: it has a clock and link, and no device-wide reset is in progress (R4, R304). -/
def ethReceives (s : State) (eth : Nat) : Bool :=
  (mget {} s.xdt.eths eth).up && s.boot.resetting.isNone && tclkRuns s

/-- The counters of 0x7005 that a frame on the wire moves: it and its bytes, the codewords corrected, an FCS error, uncorrectable
codewords. A frame for another station or of another type is counted as received (R281; DEDUCED, log entry 131). -/
def countFrame (s : State) (eth op : Nat) (fr : XFrame) : State :=
  let s := addEth (addEth (addEth s eth 1 1) eth 3 (frameBytes fr.tagged fr.routed ⟨op, fr⟩)) eth 5 fr.corrected
  match fr.arrival with
  | .fcs => addEth s eth 4 1
  | .codewords => addEth s eth 6 1
  | _ => s

/-- A frame arrives at a port: its counters, the discards, and the connection (R281, R283, R286). -/
def onFrame (s : State) (eth op : Nat) (fr : XFrame) (act : State → Nat → State) : State :=
  if !(ethReceives s eth) then s
  else
    let s := countFrame s eth op fr
    if fr.arrival.badHeader then addTotal s 0x7000 7 1
    else if fr.arrival ≠ .good then s
    else match matchConn s eth fr with
      | none => if op < 0x10 then addTotal s 0x7000 6 1 else s
      | some c => act s c

/-- A data frame of an open connection. One that comes while the connection is RESTARTING or FAILED is dropped and counted neither as
accepted nor as unmatched: no rule says what becomes of it (DESIGN CHOICE, log entry 156). -/
def takeData (op : Nat) (fr : XFrame) (s : State) (c : Nat) : State :=
  if (getConn s c).st ≠ .opened then s
  else
    let s := advanceAck (answerCe (addTotal s 0x7000 2 1) c fr.ce) c (BitVec.ofNat 32 fr.apsn)
    let C := getConn s c
    let d := (BitVec.ofNat 32 fr.psn - C.expPsn).toNat
    if d < C.window then
      if 2 ^ 26 < heldBytes s (connSouth c) + fr.payload.length then addTotal s 0x7000 8 1
      else if d = 0 then
        let s := takeFrames c C.buffered.length s ⟨op, fr⟩
        deliverAll c (getConn s c).partial_.length s
      else sendXNak (modConn s c (fun C => { C with buffered := mput C.buffered fr.psn ⟨op, fr⟩ })) c
    else if psnBefore (BitVec.ofNat 32 fr.psn) C.expPsn then sendXAck s c false
    else s

/-- XDT_MSG. -/
def execXdtMsg (eth : Nat) (fr : XFrame) (s : State) : Out := .next (onFrame s eth xMsg fr (takeData xMsg fr))
/-- XDT_WRITE. -/
def execXdtWrite (eth : Nat) (fr : XFrame) (s : State) : Out := .next (onFrame s eth xWrite fr (takeData xWrite fr))
/-- XDT_READ_REQ. -/
def execXdtReadReq (eth : Nat) (fr : XFrame) (s : State) : Out :=
  .next (onFrame s eth xReadReq fr (takeData xReadReq fr))
/-- XDT_READ_RSP. -/
def execXdtReadRsp (eth : Nat) (fr : XFrame) (s : State) : Out :=
  .next (onFrame s eth xReadRsp fr (takeData xReadRsp fr))

/-- XDT_ACK: an acknowledgement, or a RESTART (R290, R292). -/
def execXdtAck (eth : Nat) (fr : XFrame) (s : State) : Out :=
  .next (onFrame s eth xAck fr (fun s c =>
    if fr.restart then takeRestart s c
    else if (getConn s c).st = .opened then advanceAck s c (BitVec.ofNat 32 fr.apsn)
    else s))

/-- XDT_NAK: exactly the named frames are retransmitted, ahead of any new frame (R290). -/
def execXdtNak (eth : Nat) (fr : XFrame) (s : State) : Out :=
  .next (onFrame s eth xNak fr (fun s c =>
    if (getConn s c).st = .opened then
      let a : Word32 := BitVec.ofNat 32 fr.apsn
      let s := cutRate (advanceAck s c a) c
      modConn s c (fun C => C.markResend (fun o => decide ((BitVec.ofNat 32 o.fr.psn - a).toNat < fr.length)))
    else s))

/-- XDT_CNP (R293): the rate of a connection in L2 mode falls only on NAKs and timer expiries (R294). -/
def execXdtCnp (eth : Nat) (fr : XFrame) (s : State) : Out :=
  .next (onFrame s eth xCnp fr (fun s c =>
    if (getConn s c).st = .opened then
      let s := advanceAck (addTotal s 0x7000 5 1) c (BitVec.ofNat 32 fr.apsn)
      if (getConn s c).routed then cutRate s c else s
    else s))

/-! ### Sending and timers (R289 to R293) -/

/-- The connection may send: OPEN, its port has link, no device-wide reset. -/
def connSends (s : State) (c : Nat) : Bool := ethReceives s (c / 256) && decide ((getConn s c).st = .opened)

/-- XDT_FRAME_SEND: the connection whose turn it is sends a retransmission first; else a new frame within the window, which takes
the next PSN. -/
def execXdtFrameSend (conn : Nat) (s : State) : Out :=
  .next (
    if !(connSends s conn) || decide (sendTurn s (conn / 256) ≠ some conn) then s
    else
      let C := getConn s conn
      match C.resend, C.fresh with
      | o :: r, _ =>
        let s := setConn s conn { C with resend := r, retx := satAdd32 C.retx 1 }
        addTotal (sendData s conn ⟨o.op, { o.fr with retx := true }⟩) 0x7000 3 1
      | [], o :: r =>
        if C.unacked.length < C.window then
          let o : XOut := ⟨o.op, { o.fr with psn := C.nextPsn.toNat }⟩
          sendData (setConn s conn { C with fresh := r, nextPsn := C.nextPsn + 1, unacked := C.unacked ++ [o] }) conn o
        else s
      | [], [] => s)

/-- ACK_TIMER: 2 microseconds after the first frame taken since the last acknowledgement. -/
def execAckTimer (conn : Nat) (s : State) : Out :=
  .next (if connSends s conn && decide (0 < (getConn s conn).unackedRx) then sendXAck s conn false else s)

/-- RETRANSMISSION_TIMEOUT: the oldest frame again, the timer doubled and RATE halved; the eighth expiry in a row fails
the connection (R290, R291, R293). -/
def execRetransmissionTimeout (conn : Nat) (s : State) : Out :=
  .next (
    let C := getConn s conn
    match C.unacked with
    | [] => s
    | o :: _ =>
      if C.st ≠ .opened || s.boot.resetting.isSome then s
      else if C.expiries + 1 = 8 then failConn s conn .failed
      else
        let C := C.markResend (fun x => decide (x.fr.psn = o.fr.psn))
        setConn s conn { C with
          expiries := C.expiries + 1, timerUs := Nat.min 8192 (2 * C.timerUs), rate := boundRate (C.rate / 2)
          quiet := s.clk.gtc })

/-- RESTART_TIMER: every 100 ms. -/
def execRestartTimer (conn : Nat) (s : State) : Out :=
  .next (
    if ethReceives s (conn / 256) && (getConn s conn).enabled && decide ((getConn s conn).st = .restarting) then
      sendXAck s conn true
    else s)

/-- AUTO_RESTART: 100 ms after the failure. -/
def execAutoRestart (conn : Nat) (s : State) : Out :=
  .next (
    let C := getConn s conn
    if C.enabled && C.autoRestart && decide (C.st = .failed) && s.boot.resetting.isNone then restartingConn s conn else s)

/-- RATE_INCREASE: 55 microseconds without a CNP, NAK or expiry. -/
def execRateIncrease (conn : Nat) (s : State) : Out :=
  .next (
    if (getConn s conn).st = .opened && decide ((getConn s conn).quiet + 55000 ≤ s.clk.gtc) then
      modConn s conn (fun C => { C with rate := boundRate (C.rate + 12500), quiet := s.clk.gtc })
    else s)

/-! ### Apertures (R299) -/

/-- Remote transactions outstanding in a Cuff-N, of 16,384. -/
def outstandingIn (s : State) (south : Bool) : Nat :=
  s.xdt.conns.foldl (fun n e => if connSouth e.1 = south then n + e.2.requests.length else n) 0

/-- APERTURE_REQUEST: the request becomes an XDT message, or is answered with an error. A poisoned READ_REQ is discarded (R242); a
poisoned WRITE cannot be carried as poisoned and is discarded too (log entry 12). -/
def execApertureRequest (pid : Nat) (s : State) : Out :=
  .next (
    match mfind s.mesh.pkts pid with
    | none => s
    | some k =>
      match k.unit with
      | .cuffN south =>
        if !(atEnd s pid k && (decide (k.type = .readReq) || decide (k.type = .write)) && s.boot.resetting.isNone) then s
        else
          let y := readIn s pid k
          let s := y.1
          let k := y.2
          let refuse (b : Byte) : State := respond (removePkt s pid) k .error b [] false
          if k.poison && decide (k.type = .readReq) then addTotal (removePkt s pid) 0x2800 9 1
          else match getAp s ((k.addr - 0x0A0000000000) / 2 ^ 34) with
          | none => refuse stRange
          | some ap =>
            let C := getConn s ap.conn
            if !(mayReach s k) then refuse stAccess
            else if C.st ≠ .opened then refuse stNotReady
            else if k.poison then addTotal (removePkt s pid) 0x2800 9 1
            else if 16384 ≤ outstandingIn s south then s
            else
              let n := C.nextMsg.toNat
              let s := setConn (removePkt s pid) ap.conn { C with
                nextMsg := C.nextMsg + 1, requests := mput C.requests n k }
              let f := { blankFrame s C with msgid := n, length := k.len, addr := ap.base + k.addr % 2 ^ 34 }
              if k.type = .write then queueMessage s ap.conn xWrite f k.payload
              else queueMessage s ap.conn xReadReq f []
      | _ => s)

/-! ### Ports and time (R280, R281, R302, R303, R352) -/

/-- PAUSE_FRAME: discarded and counted. -/
def execPauseFrame (eth : Nat) (s : State) : Out :=
  .next (if eth < 16 ∧ ethReceives s eth = true then addEth (countOther s eth false) eth 7 1 else s)

/-- ETHERNET_LINK_CHANGE: a port that is enabled in 0x7003 gains link after training, or loses it. -/
def execEthernetLinkChange (eth : Nat) (up : Bool) (lanes : Byte) (s : State) : Out :=
  .next (
    let cfg := liveNat s 0x7003 (eth + 1) 2
    if !(decide (eth < 16)) || !(tclkRuns s) || (up && !(cfg.testBit 1)) then s
    else
      let v := mget {} s.xdt.eths eth
      let v : Eth := { v with up := up, lanes := lanes, anDone := up && !(cfg.testBit 0), fec := up }
      { s with xdt := { s.xdt with eths := mset {} s.xdt.eths eth v } })

/-- The own addresses of a port (some n) or of the management node (none). -/
def ownAddress (s : State) (node : Option Nat) (target : List Byte) : Bool :=
  match node with
  | none => decide (target = linkLocal Config.baseMac)
  | some n => decide (target = linkLocal (portMac n)) || decide (liveEntry s 0x7004 (n + 1) = some target)

/-- NEIGHBOR_SOLICITATION: a port counts the frame, and answers one for an own address; every other it discards (R281). The management
node, which is silent in a full reset, has no entry of 0x7005. -/
def execNeighborSolicitation (node : Option Nat) (target : List Byte) (s : State) : Out :=
  .next (
    match node with
    | none => if s.power.on && !s.boot.silent && ownAddress s node target then emit s (.advert node target) else s
    | some n =>
      if decide (n < 16) && ethReceives s n then
        let s := countOther s n false
        if ownAddress s node target then countOther (emit s (.advert node target)) n true else s
      else s)

/-- Rate adjustment within 500 ppm (Table 11.10). -/
def boundAdj (a : Int) : Int := max (-2147484) (min 2147484 a)

/-- A timestamp of a port: GTC nanoseconds in steps of 2, within 4 ns of the copy of the cuff's centre field; which of those values
it is is open (R302, log entry 3). -/
def portStamp (s : State) (eth : Nat) : Nat × State :=
  let x := freeVal s
  (2 * ((gtcOf s (if eth < 8 then 3 else 45) + x.1 % 8 - 3) / 2), x.2)

/-- An event message is timestamped as it is sent or received (R302). -/
def stampEvent (s : State) (eth : Nat) (tx : Bool) : State :=
  let x := portStamp s eth
  let e := mget {} x.2.xdt.eths eth
  let e : Eth := if tx then { e with txStamp := some x.1 } else { e with rxStamp := some x.1 }
  { x.2 with xdt := { x.2.xdt with eths := mset {} x.2.xdt.eths eth e } }

/-- The ordinary clock at the time port disciplines the GTC; at its first lock it steps the GTC forward once if the GTC trails by
more than 1 ms (R303). The offset is the master's time less the GTC, so that a negative one, the GTC leading, is removed by the rate
adjustment alone (DEDUCED, log entry 176). When the clock locks is open: a free value decides (log entry 3). -/
def discipline (s : State) (ev : PtpEvent) : State :=
  let x := freeVal s
  let s := x.2
  let lock := decide (s.xdt.timeState = 2) || decide (x.1 % 2 = 1)
  let stepNow := lock && !s.xdt.stepped && decide (1000000 < ev.offsetNs)
  { s with
    clk := { s.clk with gtc := if stepNow then s.clk.gtc + ev.offsetNs.natAbs else s.clk.gtc }
    xdt := { s.xdt with
      offset := ev.offsetNs, rateAdj := boundAdj ev.rateAdj
      timeState := if lock then 2 else 1, stepped := s.xdt.stepped || lock } }

/-- PTP_EVENT_MESSAGE: every port counts and timestamps it; one received at the time port also disciplines the GTC. -/
def execPtpEventMessage (eth : Nat) (ev : PtpEvent) (s : State) : Out :=
  .next (
    if decide (eth < 16) && ethReceives s eth then
      let s := stampEvent (countOther s eth ev.transmit) eth ev.transmit
      if decide (liveNat s 0x7040 1 0xFF = eth) && !ev.transmit then discipline s ev else s
    else s)

end Sys2Proof.Machine
end

