-- ==== Sys2Proof/Machine/MeshArrivals.lean ====
section
/-!
DEFINITION. What trains do in the mesh and at the units where they end: forwarding (R242, R245, R247, R251, R485), the
scratchpad as a target (R220, R223, R256), responses at the requester (R87, R255), message landing (R258 to R260),
windows (R262 to R264), and the end of a context's flush (R268). The target side of DRAM is in Machine/Dram.lean, that
of the host windows in Machine/Host.lean.
-/
namespace Sys2Proof.Machine

/-! ### Forwarding -/

/-- The hop from a to b is fenced (R35, R251). -/
def hopFenced (s : State) (k : Pkt) (a b : XY) : Bool :=
  !(fieldAlive s b.field) || linkDead s k.type.rsp a b

/-- Packet p is poisoned from flit j on, or from an earlier one. -/
def poisonFrom (l : List (Nat × Nat)) (p j : Nat) : List (Nat × Nat) :=
  if l.any (fun x => decide (x.1 = p)) then l.map (fun x => if x.1 = p then (p, min x.2 j) else x) else l ++ [(p, j)]

/-- What a train's flits have crossed in a step, from the head backwards: the router that has received them, the first of them and the
one after the last. A buffer that its end has left behind has let all pass. -/
def crossed (k k' : Pkt) : List (XY × Nat × Nat) :=
  let new := (List.range k'.trail.length).filterMap (fun i => (k'.trail[i]?).map (fun x =>
    (x.1, if i = 0 && decide (k'.at_ ≠ k.at_) then 0 else (k.entered x.1).getD 0, ((k'.trail.take (i + 1)).map (·.2)).sum)))
  let old := k.trail.filterMap (fun x =>
    if (k'.entered x.1).isSome then none else some (x.1, (k.entered x.1).getD 0, k.flits))
  ((new ++ old).filter (fun x => decide (x.1.a ≠ x.1.b) && decide (x.2.1 < x.2.2))).map (fun x => (x.1.b, x.2))

/-- The router that flit n of the train has reached in a step, the nearest to the head where it has reached several. With the head where
the train ends, the flits that are not in its buffer yet arrive there as the unit takes them. -/
def arrivesAt (k k' : Pkt) (n : Nat) : Option XY :=
  match (crossed k k').find? (fun x => decide (x.2.1 ≤ n) && decide (n < x.2.2)) with
  | some x => some x.1
  | none =>
    match k'.head with
    | none => none
    | some v => if k'.at_ = k'.dst && decide (v.a ≠ v.b) && decide ((k'.entered v).getD 0 ≤ n) && decide (n < k'.flits) then some v.b
      else none

/-- Flit n of the train arrives at a router with a CRC error: its packet is poisoned, PARITY is set at the router's tile and 0x2800:05
counts it (R242). The bytes that the flit brings of a message are a free value (log entry 3). -/
def poisonFlit (at_ : Nat → Option XY) (x : State × Pkt) (n : Nat) : State × Pkt :=
  match at_ n with
  | none => x
  | some r =>
    let k := { x.2 with poison := true, badPkts := poisonFrom x.2.badPkts (n / 129) (n % 129) }
    let s := setEvent (addTotal x.1 0x2800 5 1) r evParity
    if k.type = .msg then
      let b := flitBytes k.len n
      let v := freeVal s
      (v.2, { k with payload := k.payload.take b.1 ++ natBytes b.2 v.1 ++ k.payload.drop (b.1 + b.2) })
    else (s, k)

/-- A CTLP error on a mesh link is contained as an uncorrectable error is (R457). -/
def controlLaneError (s : State) (t : XY) : State :=
  decideCompute (raise s ((blankEvent clControlLane sevFatal meParity acCompute).atTile s t) t.key)

/-- What the links have done to a train in a step that has moved it from k: the flits that have arrived with a CRC error, and the byte
whose parity the way has spoiled (R214). CTLP, which is checked in every cycle, is that of the link over which the train's first flit of
the step has come, or of the link that its head waits for. -/
def arrive (s : State) (pid : Nat) (k : Pkt) (err : TrainErr) (ctlpErr : Bool) : State :=
  match mfind s.mesh.pkts pid with
  | none => s
  | some k' =>
    let c := crossed k k'
    let x := err.crc.foldl (poisonFlit (arrivesAt k k')) (s, k')
    let s := putPkt x.1 pid { x.2 with parBad := if err.parity.isSome && !c.isEmpty then err.parity else x.2.parBad }
    if ctlpErr then
      match c with
      | y :: _ => controlLaneError s y.1
      | [] => if k'.at_ = k'.legEnd || hopFenced s k' k'.at_ k'.next.b then s else controlLaneError s k'.next.b
    else s

/-- TRAIN_FORWARD: the train's head takes one hop toward the end of its leg when that hop is free, and its flits close up, which they
do also where the head waits or has come to its end (R246); at the destination, the ejection port of a broken row discards it.
`err`: the flits that arrive in this step with a CRC error (R242), and a byte whose parity the way spoils (R214). -/
def execTrainForward (pid : Nat) (err : TrainErr) (ctlpErr : Bool) (s : State) : Out :=
  .next (
    match mfind s.mesh.pkts pid with
    | none => s
    | some k =>
      let k := { k with passedMid := k.passedMid || decide (k.at_ = k.legEnd) }
      let stay := arrive (putPkt s pid (k.settle s k.trail)) pid k err ctlpErr
      if !(isFront s pid k) then stay
      else if k.at_ = k.legEnd then
        if k.unit = .tile && isHole s k.dst then discardTrain s pid k else stay
      else if hopFenced s k k.at_ k.next.b then discardTrain s pid k
      else if !(hopFree s pid k) then stay
      else
        let s := hop s pid k
        let s := match mfind s.mesh.pkts pid with
          | none => s
          | some k' => (readIn s pid k').1
        arrive s pid k err ctlpErr)

/-! ### The scratchpad as a target -/

/-- A poisoned train that its consumer only discards. -/
def dropPoison (s : State) (pid : Nat) : State :=
  match mfind s.mesh.pkts pid with
  | none => s
  | some k => addTotal (removePkt s pid) 0x2800 9 k.poisoned

/-- A request that has reached its tile, if the tile takes it now. -/
def arrivedTile (s : State) (pid : Nat) (ty : PktType) : Option Pkt :=
  match arrived s pid ty with
  | none => none
  | some k => if k.unit = .tile && takes s k.dst then some k else none

/-- The bytes that a request moves lie below 0x30_0000 of the slot: a byte at or above it is not decoded (R219; log
entry 111). -/
def slotFits (k : Pkt) (n : Nat) : Bool := inPad (k.addr % 2 ^ 22) n

/-- READ_REQ (R219, R220, R223, R483). -/
def execReadReq (pid : Nat) (s : State) : Out :=
  .next (
    match arrivedTile s pid .readReq with
    | none => s
    | some k =>
      if k.poison then dropPoison s pid
      else if !(mayReach s k) then respond (removePkt s pid) k .error stAccess [] false
      else if !(slotFits k k.len) then respond (removePkt s pid) k .error stRange [] false
      else
        let a := k.addr % 2 ^ 22
        let x := padRead (removePkt s pid) k.dst a k.len .none
        let s := modTile x.1 k.dst (fun T => T.addAct 3 (lineCount a k.len))
        respondWith s k .readRsp stOk x.2.2 x.2.1 (badFrom (getTile x.1 k.dst) a k.len))

/-- WRITE (R214, R219, R220, R223, R242, R256). The bytes of a GDMA.PUT that ends where it begins are read now (R208). -/
def execWriteReq (pid : Nat) (s : State) : Out :=
  .next (
    match arrivedTile s pid .write with
    | none => s
    | some k =>
      let y := readIn s pid k
      let s := y.1
      let k := y.2
      if !(mayReach s k) then respond (removePkt s pid) k .error stAccess [] false
      else if !(slotFits k k.payload.length) then respond (removePkt s pid) k .error stRange [] false
      else
        let a := k.addr % 2 ^ 22
        let s := removePkt s pid
        let s := if k.poison then padPoison (consumePoison s k) k.dst a k.payload.length
          else padPut s k.dst a k.payload k.parBad
        let s := modTile s k.dst (fun T => T.addAct 3 (lineCount a k.payload.length))
        respond s k .writeAck stOk [] false)

/-! ### Responses at the requester -/

/-- READ_RSP (R86, R255, R242). The requester takes it whatever else it waits for (R240); the data of a GDMA.GET waits there for the
local fences before it (R105). -/
def execReadRsp (pid : Nat) (s : State) : Out :=
  .next (
    match arrived s pid .readRsp with
    | none => s
    | some k =>
      match k.unit, k.origin with
      | .tile, _ =>
        if !(takes s k.dst) then s
        else if (getTile s k.dst).fences.contains (.land k.tag) then
          let s := removePkt s pid
          { s with mesh := { s.mesh with waiting := s.mesh.waiting ++ [k] } }
        else endRead (removePkt s pid) k
      | .host _, .bar2 f id =>
        endBar2 (if k.poison then addTotal (removePkt s pid) 0x2800 9 1 else removePkt s pid) f id
          (if k.poison then none else some k.payload)
      | .cuffN _, .xdt c m =>
        servePiece (if k.poison then addTotal (removePkt s pid) 0x2800 9 1 else removePkt s pid) c m k.piece k.poison
          k.payload
      | .host _, .cmd p qp cid g =>
        copyPiece (if k.poison then addTotal (removePkt s pid) 0x2800 9 1 else removePkt s pid) p qp cid g k.piece k.poison
          k.payload
      | _, _ => removePkt s pid)

/-- A response that carries no data, to its requester: whether it is an error. -/
def endRequest (s : State) (k : Pkt) (bad : Bool) : State :=
  match k.unit, k.origin with
  | .tile, _ => donePiece s k.dst k.tag k.piece bad
  | .host _, .bar2 f id => if bad then endBar2 s f id none else s
  | .cuffN _, .xdt c m => servePiece s c m k.piece bad []
  | .host _, .cmd p qp cid g => copyPiece s p qp cid g k.piece bad []
  | _, _ => s

/-- WRITE_ACK (R86, R255). -/
def execWriteAck (pid : Nat) (s : State) : Out :=
  .next (
    match arrived s pid .writeAck with
    | none => s
    | some k =>
      if k.unit = .tile && !(takes s k.dst) then s
      else if k.poison then dropPoison s pid
      else endRequest (removePkt s pid) k false)

/-- ERROR (R87, R255). -/
def execErrorRsp (pid : Nat) (s : State) : Out :=
  .next (
    match arrived s pid .error with
    | none => s
    | some k =>
      if k.unit = .tile && !(takes s k.dst) then s
      else if k.poison then dropPoison s pid
      else endRequest (removePkt s pid) k true)

/-! ### Messages (R258 to R260, R191) -/

/-- The sender that a record names: across the mesh the train's source, from another device the tile at that device. -/
def Pkt.sender (k : Pkt) : XY := match k.remote with
  | none => k.src
  | some _ => k.far

/-- Table 9.13. -/
def recordHeader (k : Pkt) : List Byte :=
  let dev : Nat := match k.remote with
    | none => 0
    | some (d, _) => d.toNat
  natBytes 4 k.len ++ natBytes 2 (128 * k.sender.y + k.sender.x)
    ++ [BitVec.ofNat 8 k.ch.toNat, BitVec.ofNat 8 (2 * b2n k.pin + 4 * b2n k.remote.isSome + 8 * b2n k.poison)]
    ++ natBytes 2 k.seq.toNat ++ natBytes 2 dev ++ zeros 4

/-- Header, payload, zeros to the record's end (R258). -/
def recordBytes (k : Pkt) : List Byte := padTo (recBytes k.len) (recordHeader k ++ k.payload)

/-- A pad's header: LENGTH t - 16, FLAGS PAD (R259). -/
def padHeader (t : Nat) : List Byte := natBytes 4 (t - 16) ++ zeros 3 ++ [1] ++ zeros 8

/-- The load tag that a message takes as it lands (R191). -/
def Tile.landTag (T : Tile) (q : BitVec 4) : Option Half :=
  if T.multi then
    (([0, 1, 2, 3] : List (BitVec 2)).find? (fun n => (T.getSlot n).valid && (T.getSlot n).qmask.getLsbD q.toNat)).map
      (fun n => (T.getSlot n).tag)
  else some T.activeSlot.tag

/-- Where a record of n bytes lands: the ring offset, the pad's bytes before it (0: none). -/
def Queue.place (q : Queue) (n : Nat) : Nat × Nat :=
  let sz := 2 ^ q.log2.toNat
  let p := q.wp.toNat % sz
  let t := sz - p
  if n ≤ t then (p, 0) else (0, t)

/-- The queue takes the message (R260). -/
def Queue.accepts (q : Queue) (len : Nat) : Bool :=
  decide (q.log2 ≠ 0) && decide (len ≤ q.maxmsg.toNat)
    && decide ((q.place (recBytes len)).2 + recBytes len ≤ 2 ^ q.log2.toNat - q.used)

/-- Land a message whose queue accepts it (R259). -/
def landMsg (s : State) (t : XY) (k : Pkt) : State :=
  let T := getTile s t
  let q := T.getQ k.queue.toNat
  let n := recBytes k.len
  let pl := q.place n
  let base := 64 * q.base.toNat
  let s := if pl.2 = 0 then s
    else addTotal (padWrite s t (base + (2 ^ q.log2.toNat - pl.2)) (padHeader pl.2)) 0x2800 2 1
  let s := addTotal (padPut s t (base + pl.1) (recordBytes k) (k.parBad.map (· + 16))) 0x2800 1 1
  let pad : List Landed := if pl.2 = 0 then [] else [⟨pl.2, true, t, 0, none, none⟩]
  let r : Landed := ⟨n, false, k.sender, k.ch, k.remote, T.landTag k.queue⟩
  modTile s t (fun T => (T.setQ k.queue.toNat { q with
    wp := q.wp + BitVec.ofNat 32 (pl.2 + n), recs := q.recs ++ pad ++ [r] }).addAct 3
      (n / 64 + (if pl.2 = 0 then 0 else 1)))

/-- A train from a channel of this device reaches the connection that carries it (R285, R298): a message becomes a MSG
message, anything else a control record. A connection that is not OPEN carries nothing (R291). -/
def toDevice (s : State) (k : Pkt) : State :=
  match k.remote with
  | none => s
  | some (_, c) =>
    if (getConn s c).st ≠ .opened then s
    else if k.type = .msg then
      queueMessage s c xMsg { blankFrame s (getConn s c) with
        pin := k.pin, ch := k.ch.toNat, dtile := k.far, dqueue := k.queue.toNat, msgid := k.seq.toNat, length := k.len }
        k.payload
    else sendRecord s c 0 (ctrlRecord s c k.type k.src k.far k.tag k.queue.toNat k.ch.toNat k.win k.status.toNat)

/-- The tile end of a queue train: at a tile its effect, at a Cuff-N the way to the other device, where a poisoned one, which no
XDT message can carry as poisoned, is discarded and counted, a message too (log entry 12). -/
def queueTrain (s : State) (pid : Nat) (ty : PktType) (act : State → Pkt → State) : Out :=
  .next (
    match arrived s pid ty with
    | none => s
    | some k =>
      match k.unit with
      | .tile =>
        if !(takes s k.dst) then s
        else if k.poison && decide (ty ≠ .msg) then dropPoison s pid
        else act (removePkt s pid) k
      | .cuffN _ =>
        if s.boot.resetting.isSome then s
        else if k.poison then dropPoison s pid
        else toDevice (removePkt s pid) k
      | _ => removePkt s pid)

/-- MSG: the record lands, or the message is discarded whole. -/
def execMsg (pid : Nat) (s : State) : Out :=
  queueTrain s pid .msg (fun s k =>
    if ((getTile s k.dst).getQ k.queue.toNat).accepts k.len then
      landMsg (if k.poison then consumePoison s k else s) k.dst k
    else addTotal s 0x2800 6 1)

/-- MSG_ACK (R263). -/
def execMsgAck (pid : Nat) (s : State) : Out :=
  queueTrain s pid .msgAck (fun s k =>
    modTile s k.dst (fun T =>
      let c := T.getChan k.ch
      if c.st = .opened || c.st = .closing then T.setChan k.ch { c with credit := c.credit + k.win } else T))

/-- Answer an OPEN or CLOSE to the sender. -/
def answerChan (s : State) (k : Pkt) (ty : PktType) (b : Byte) : State := respond s k ty b [] false

/-- The judgement of an OPEN (R262). -/
def Queue.opens (q : Queue) (w : Nat) : Bool :=
  decide (q.log2 ≠ 0) && decide (w ≤ q.maxmsg.toNat)
    && decide (q.winsum.toNat + recBytes w + recBytes q.maxmsg.toNat ≤ 2 ^ q.log2.toNat)

/-- OPEN. -/
def execOpenReq (pid : Nat) (s : State) : Out :=
  queueTrain s pid .opn (fun s k =>
    let q := (getTile s k.dst).getQ k.queue.toNat
    if q.opens k.win then
      answerChan (modTile s k.dst (fun T =>
        T.setQ k.queue.toNat { q with winsum := q.winsum + BitVec.ofNat 21 (recBytes k.win) })) k .openRsp stOk
    else answerChan (addTotal s 0x2800 4 1) k .openRsp stRange)

/-- OPEN_RSP: QOPEN writes its status. An answer to an OPEN or CLOSE whose timer has expired is discarded (R252): it bears another TAG
than the one the channel awaits (log entry 123). -/
def execOpenRsp (pid : Nat) (s : State) : Out :=
  queueTrain s pid .openRsp (fun s k =>
    modTile s k.dst (fun T =>
      let c := T.getChan k.ch
      if c.st = .opening && decide (k.tag = c.tag) then
        T.endChan k.ch c k.status (if k.status = stOk then { c with st := .opened, credit := recBytes c.win } else {})
      else T))

/-- CLOSE: WINSUM gives back the channel's credit. -/
def execCloseReq (pid : Nat) (s : State) : Out :=
  queueTrain s pid .cls (fun s k =>
    answerChan (modTile s k.dst (fun T =>
      let q := T.getQ k.queue.toNat
      T.setQ k.queue.toNat { q with winsum := q.winsum - BitVec.ofNat 21 (recBytes k.win) })) k .closeRsp stOk)

/-- CLOSE_RSP: the channel is free. -/
def execCloseRsp (pid : Nat) (s : State) : Out :=
  queueTrain s pid .closeRsp (fun s k =>
    modTile s k.dst (fun T =>
      let c := T.getChan k.ch
      if c.st = .closing && c.closeSent && decide (k.tag = c.tag) then T.endChan k.ch c k.status {} else T))

/-! ### The end of a flush (R268) -/

end Sys2Proof.Machine
end

