-- ==== Sys2Proof/Machine/Dram.lean ====
section
/-!
DEFINITION. DRAM (R225 to R235, R463): requests at a complex, held writes, refresh, calibration, patrol, and channel
failure. Bytes are kept as plain text: encryption (R230) shows only where the key of a line is gone, whose bytes then read as
what AES-256-XTS makes of them under another key.
-/
namespace Sys2Proof.Machine

/-! ### Lines, channels, complexes -/

/-- Lines that n bytes from offset a touch. -/
def linesOf (a n : Nat) : List Nat := if n = 0 then [] else (List.range ((a + n - 1) / 64 - a / 64 + 1)).map (· + a / 64)

/-- The granule that a line's channel mark stands under: 1,344 for the part of the device-reserved granule above the crash area,
which a capture leaves as it is (Table 8.8). -/
def markGranule (l : Nat) : Nat := if crashBase + crashSize ≤ 64 * l then 1344 else l / 2 ^ 24

/-- The tweak of a line (R230). -/
def xtsTweak (l : Nat) : BitVec 128 := BitVec.ofNat 128 l

/-- The key of a line's granule is in the key stores: the device key, or its owner's (R230, Table 8.8). -/
def keyHeld (s : State) (l : Nat) : Bool :=
  if l / 2 ^ 24 = 1343 then s.dram.devKey
  else match mfind s.dram.granules (l / 2 ^ 24) with
    | none => false
    | some g => (getPart s g.owner).key

/-- n bytes from offset a, as a read under the keys now held gives them. -/
def dramBytes (s : State) (a n : Nat) : List Byte :=
  if (linesOf a n).all (keyHeld s) then s.dram.mem.bytes a n
  else (List.range n).map (fun i =>
    let l := (a + i) / 64
    if keyHeld s l then s.dram.mem.byte (a + i)
    else Config.undeciphered (xtsTweak l) (s.dram.mem.bytes (64 * l) 64) ((a + i) % 64))

/-- A line, by its number from the start of DRAM, holds the poison code. -/
def linePoison (s : State) (l : Nat) : Bool :=
  match mfind s.dram.poison l with
  | some b => b
  | none =>
    let a := dramBase + 64 * l
    let g := 448 * markGranule l
    (mfind s.dram.poisonCh (g + 2 * (hashMap a).2)).isSome || (mfind s.dram.poisonCh (g + 2 * (localMap a).2 + 1)).isSome

/-- Set or clear a line's mark; no mark is listed that only repeats its channel's. -/
def markLine (s : State) (l : Nat) (b : Bool) : State :=
  let s := { s with dram := { s.dram with poison := mdel s.dram.poison l } }
  if linePoison s l = b then s else { s with dram := { s.dram with poison := mput s.dram.poison l b } }

/-- Zero-fill a granule: its bytes are 0 and its lines are good (R229), those that lie on an unreachable complex too, of which no rule
speaks (R40; DESIGN CHOICE, log entry 177). -/
def zeroGranule (s : State) (g : Nat) : State :=
  let inMem (a : Nat) : Bool := decide (a / 2 ^ 30 = g)
  { s with dram := { s.dram with
    mem := s.dram.mem.filter (fun c => !(inMem c.1))
    poison := s.dram.poison.filter (fun e => decide (e.1 / 2 ^ 24 ≠ g))
    poisonCh := s.dram.poisonCh.filter (fun e => decide (e.1 / 448 ≠ g)) } }

/-! ### Protected copies (R463, R464) -/

/-- Granules of copy c of a region. -/
def Region.copy (r : Region) (c : Nat) : Nat := if c = 0 then r.copy0 else r.copy1

/-- n bytes from offset a overlap copy c of the region, whose descriptor is VALID. -/
def Region.meets (r : Region) (c a n : Nat) : Bool :=
  r.valid && decide (a < (r.copy c + r.count) * 2 ^ 30) && decide (r.copy c * 2 ^ 30 < a + n)

/-- One more fault on every copy that these bytes meet. -/
def bumpFaults (s : State) (a n : Nat) : State :=
  let one (r : Region) (i : Nat) (m : SMap Nat) (c : Nat) : SMap Nat :=
    if r.meets c a n then mset 0 m (2 * i + c) (mget 0 m (2 * i + c) + 1) else m
  let upd (P : Part) : SMap Nat := P.regions.foldl (fun m e => one e.2 e.1 (one e.2 e.1 m 0) 1) P.faults
  { s with parts := mmap (fun _ P => { P with faults := upd P }) s.parts }

/-- A write of n bytes from offset a meets a copy that is committed. -/
def heldBy (P : Part) (a n : Nat) : Bool :=
  match P.c with
  | none => false
  | some c => P.regions.any (fun e => e.2.meets (c % 2) a n)
def writeHeld (s : State) (a n : Nat) : Bool := s.parts.any (fun e => heldBy e.2 a n)

/-! ### Events -/

/-- An event of a complex at an address, placed at the complex's field. -/
def complexEvent (s : State) (dc a cls sev mech act : Nat) : Event :=
  { (blankEvent cls sev mech act).atField s (edgeOf dc).1 with addr := a }

/-- A line was corrected (R225). -/
def lineCorrected (s : State) (dc l : Nat) : State :=
  let s := addTotal s 0x4800 5 1
  let s := setComplex s dc { (getComplex s dc) with corrected := (getComplex s dc).corrected + 1 }
  raise s (complexEvent s dc (dramBase + 64 * l) clDramCe sevCorrected meEcc acNone) dc

/-- A line is found uncorrectable: it is poisoned, counted and raised, and the device is reset (R234, R455). -/
def lineUncorrectable (s : State) (dc l : Nat) : State :=
  let s := bumpFaults (addTotal (markLine s l true) 0x4800 6 1) (64 * l) 64
  let s := setComplex s dc { (getComplex s dc) with uncorrectable := (getComplex s dc).uncorrectable + 1 }
  decideCompute (raise s (complexEvent s dc (dramBase + 64 * l) clDramUe sevFatal meEcc acCompute) dc)

/-! ### Requests (R231, R234) -/

/-- The read of one line: a poisoned one is refused and counted; else `err` is what the read meets (R225, R234). True where the
reader gets an error response. -/
def readLine (dc l : Nat) (err : LineErr) (s : State) : State × Bool :=
  if linePoison s l then (addTotal s 0x4800 7 1, true)
  else match err with
    | .none => (s, false)
    | .corrected => (lineCorrected s dc l, false)
    | .uncorrectable => (lineUncorrectable s dc l, true)

/-- Read lines, each with what its read meets (nothing where the list has ended). True where one of them refuses. -/
def readLines (dc : Nat) : List Nat → List LineErr → State → State × Bool
  | [], _, s => (s, false)
  | l :: r, errs, s =>
    let x := readLine dc l (errs.headD .none) s
    let y := readLines dc r errs.tail x.1
    (y.1, x.2 || y.2)

/-- The bytes of the payload (from offset a) that fall on one line: offset and bytes. -/
def lineSlice (a : Nat) (data : List Byte) (l : Nat) : Nat × List Byte :=
  let lo := max a (64 * l)
  let hi := min (a + data.length) (64 * l + 64)
  (lo, (data.drop (lo - a)).take (hi - lo))

def putLine (s : State) (o : Nat) (l : List Byte) : State :=
  { s with dram := { s.dram with mem := s.dram.mem.store o l } }

/-- Write lines: a whole line clears its poison; part of a line reads the line first, and a poisoned one refuses it. -/
def writeLines (dc a : Nat) (data : List Byte) : List Nat → List LineErr → State → State × Bool
  | [], _, s => (s, false)
  | l :: r, errs, s =>
    let w := lineSlice a data l
    if w.2.length = 64 then writeLines dc a data r errs.tail (markLine (putLine s w.1 w.2) l false)
    else
      let x := readLine dc l (errs.headD .none) s
      let y := writeLines dc a data r errs.tail (if x.2 then x.1 else putLine x.1 w.1 w.2)
      (y.1, x.2 || y.2)

/-- A poisoned WRITE: every line touched takes the poison code; the movement error is raised at the complex (R242). -/
def poisonLines (s : State) (dc a n : Nat) : State :=
  let s := forAll (fun s l => bumpFaults (markLine s l true) (64 * l) 64) (linesOf a n) (addTotal s 0x2800 9 1)
  raise s (complexEvent s dc (dramBase + a) clDataMove sevRecoverable meCrc acNone) dc

/-- A request takes effect at its complex and is answered. STATUS of an error is ACCESS for missing rights, else NOT_READY
(log entry 14). -/
def serveDram (s : State) (pid : Nat) (k : Pkt) (errs : List LineErr) : State :=
  let a := k.addr - dramBase
  let ch := (dramMap s k.addr).2
  let dc := ch / 8
  let s := { removePkt s pid with dram := { s.dram with held := s.dram.held.filter (fun i => decide (i ≠ pid)) } }
  let C := getComplex s dc
  if k.type = .write then
    let n := k.payload.length
    let refuse (b : Byte) : State := respond (bumpFaults s a n) k .error b [] false
    if !(mayReach s k) then refuse stAccess
    else if chanShut s ch then refuse stNotReady
    else
      let s := setComplex s dc { C with bytesWritten := C.bytesWritten + BitVec.ofNat 64 n }
      if k.poison then respond (poisonLines s dc a n) k .writeAck stOk [] false
      else
        let x := writeLines dc a k.payload (linesOf a n) errs s
        if x.2 then respond (bumpFaults x.1 a n) k .error stNotReady [] false
        else respond x.1 k .writeAck stOk [] false
  else if k.poison then addTotal s 0x2800 9 1
  else if !(mayReach s k) then respond s k .error stAccess [] false
  else if chanShut s ch then respond s k .error stNotReady [] false
  else
    let s := setComplex s dc { C with bytesRead := C.bytesRead + BitVec.ofNat 64 k.len }
    let x := readLines dc (linesOf a k.len) errs s
    if x.2 then respond x.1 k .error stNotReady [] false
    else respond x.1 k .readRsp stOk (dramBytes x.1 a k.len) false

/-- Bytes that a request moves. -/
def Pkt.span (k : Pkt) : Nat := if k.type = .write then k.payload.length else k.len

/-- Two requests touch a common line. -/
def sameLine (a b : Pkt) : Bool :=
  (linesOf (a.addr - dramBase) a.span).any (fun l => (linesOf (b.addr - dramBase) b.span).contains l)

/-- A request finds its bank in refresh, or its channel in calibration (R232). -/
def windowHolds (s : State) (k : Pkt) : Bool :=
  let m := dramMap s k.addr
  let busy := match (getComplex s (m.2 / 8)).refreshing with
    | none => false
    | some b => decide (b = Config.dramBank ((k.addr - dramBase) / 64))
  busy || (getChannel s m.2).calibrating

/-- A request waits in its complex: for a window, or it writes a committed copy, or an earlier request that waits touches one of
its lines (R231, R232, R463). One without rights, or for a channel that gives errors, waits for nothing. -/
def waitsAt (s : State) (before : List Nat) (k : Pkt) : Bool :=
  mayReach s k && !(chanShut s (dramMap s k.addr).2)
    && (windowHolds s k || (decide (k.type = .write) && writeHeld s (k.addr - dramBase) k.span)
      || before.any (fun i => match mfind s.mesh.pkts i with
        | none => false
        | some j => sameLine j k))

/-- After C has changed or a window has ended: every waiting request that may proceed does, in arrival order. -/
def releaseHeldGo : List Nat → List Nat → State → State
  | [], kept, s => { s with dram := { s.dram with held := kept } }
  | i :: r, kept, s =>
    match mfind s.mesh.pkts i with
    | none => releaseHeldGo r kept s
    | some k =>
      if waitsAt s kept k then releaseHeldGo r (kept ++ [i]) s
      else releaseHeldGo r kept (serveDram s i k k.errs)
def releaseHeld (s : State) : State := releaseHeldGo s.dram.held [] s

/-- A request at its complex may be taken: the arrays are not in self-refresh. -/
def dramTakes (s : State) (k : Pkt) : Bool :=
  decide (k.unit = .dram) && (k.type = .readReq || k.type = .write)
    && !s.dram.selfRefresh && s.boot.resetting.isNone

/-- Requests that wait in the complex of this one (R231: at most 256). -/
def queueLength (s : State) (k : Pkt) : Nat :=
  (s.dram.held.filter (fun i => match mfind s.mesh.pkts i with
    | none => false
    | some j => decide ((dramMap s j.addr).2 / 8 = (dramMap s k.addr).2 / 8))).length

/-- DRAM_REQUEST: the complex takes a request into its queue, and serves it at once where nothing holds it; `errs` is what a read
meets on each line it touches, the first line first. Requests for one line take effect in the order in which the complex takes
them (R231). The command for a request that it has taken already serves it once nothing holds it. -/
def execDramRequest (pid : Nat) (errs : List LineErr) (s : State) : Out :=
  .next (
    match mfind s.mesh.pkts pid with
    | none => s
    | some k =>
      if s.dram.held.contains pid then
        if waitsAt s (s.dram.held.takeWhile (fun i => decide (i ≠ pid))) k then s else serveDram s pid k k.errs
      else if !(atEnd s pid k) || !(dramTakes s k) || 256 ≤ queueLength s k then s
      else
        let y := readIn s pid k
        if waitsAt y.1 y.1.dram.held y.2 then
          let s := putPkt y.1 pid { y.2 with trail := [], errs := errs }
          { s with dram := { s.dram with held := s.dram.held ++ [pid] } }
        else serveDram y.1 pid y.2 errs)

/-- CONTEXT_FLUSH_END: no router holds a packet of the context; its tiles begin to zeroise, which CONTEXT_RESET_DONE finds to
have ended (R74, Table 18.5, step 4). Requests that waited behind one of the context's proceed at its complex (R463). -/
def execContextFlushEnd (p : PartId) (s : State) : Out :=
  .next (
    let P := getPart s p
    match P.resetting with
    | none => s
    | some r =>
      if s.mesh.pkts.any (fun e => flushingPkt s e.2 && decide (some e.2.ctx = P.ctx)) then s
      else
        let s' := if r.flushed then s else zeroPart s p
        releaseHeld { setPart s' p { P with resetting := some { r with flushed := true } } with
          mesh := { s'.mesh with flushing := s'.mesh.flushing.filter (fun q => decide (q ≠ p)) } })

/-! ### Windows, patrol, failure -/

/-- A complex runs: it stops with its field's power, and has no clock without a reference or holdover (R4, R357, R382). -/
def dcPowered (s : State) (dc : Nat) : Bool := tclkRuns s && !(getComplex s dc).lost

/-- REFRESH_WINDOW opens or ends for one bank; the rate doubles above 85 °C, by the hottest die that the packages report (R232,
Table 8.11). The end of a window lets waiting requests go. -/
def execRefreshWindow (dc : Nat) (w : RefreshBank) (active : Bool) (s : State) : Out :=
  .next (
    if dc < 28 && dcPowered s dc then
      let s := setComplex s dc { (getComplex s dc) with
        refreshing := if active then some w.bank else none, temp := w.temp, refreshX := if 85 < w.temp.toNat then 2 else 1 }
      if active then s else releaseHeld s
    else s)

/-- CALIBRATION_WINDOW; the end of one that was asked for by 0x5020 counts it (R437). -/
def execCalibrationWindow (ch : Nat) (active : Bool) (s : State) : Out :=
  .next (
    if ch < 224 && dcPowered s (ch / 8) then
      let s := setChannel s ch { (getChannel s ch) with calibrating := active }
      let C := getComplex s (ch / 8)
      let s := if !active && decide (0 < C.extraCal) then setComplex s (ch / 8) { C with extraCal := C.extraCal - 1 } else s
      if active then s else releaseHeld s
    else s)

/-- Lines of a channel (R233). -/
def chanLines : Nat := 100663296

/-- The line, counted from the start of DRAM, that lies at line i of a channel. -/
def lineAt (s : State) (ch i : Nat) : Nat :=
  let row := i / 64
  if s.dram.loc then 64 * ((ch / 8) * 12582912 + 8 * row + (ch % 8 + 8 - row % 8) % 8) + i % 64
  else
    let h := ((row ^^^ (row >>> 9) ^^^ (row >>> 17)) * 37) % 224
    64 * (224 * row + (ch + 224 - h) % 224) + i % 64

/-- PATROL_SCRUB: the channel's next line. -/
def execPatrolScrub (ch : Nat) (err : LineErr) (s : State) : Out :=
  .next (
    if decide (224 ≤ ch) || !(dcPowered s (ch / 8)) || dcRests s (ch / 8) || s.boot.resetting.isSome || chanDead s ch
        || (getChannel s ch).calibrating then s
    else
      let c := getChannel s ch
      let l := lineAt s ch c.patrol
      let last := decide (c.patrol + 1 = chanLines)
      let s := setChannel s ch { c with
        patrol := if last then 0 else c.patrol + 1, passes := if last then c.passes + 1 else c.passes }
      (readLine (ch / 8) l err s).1)

/-- CHANNEL_FAILURE: an uncorrectable-error event (R235, R455). -/
def execChannelFailure (ch : Nat) (s : State) : Out :=
  .next (
    if decide (224 ≤ ch) || !(dcPowered s (ch / 8)) || (getChannel s ch).faulted then s
    else
      let s := setChannel s ch { (getChannel s ch) with faulted := true }
      decideCompute (raise s (complexEvent s (ch / 8) 0 clDramUe sevFatal meEcc acCompute) (ch / 8)))

/-- Retraining has succeeded after a fault: the channel is back with every line poisoned (R235). -/
def retrainChannel (s : State) (ch : Nat) : State :=
  let s := setChannel s ch { (getChannel s ch) with faulted := false }
  let keep := s.dram.poison.filter (fun e => decide ((dramMap s (dramBase + 64 * e.1)).2 ≠ ch))
  { s with dram := { s.dram with
    poison := keep
    poisonCh := (List.range 1345).foldl (fun m g => mput m (448 * g + 2 * ch + b2n s.dram.loc) true) s.dram.poisonCh } }

/-- COMMIT_WITHDRAWAL: a write has waited for the commit hold limit (R463). -/
def execCommitWithdrawal (p : PartId) (s : State) : Out :=
  .next (
    let P := getPart s p
    let waits := s.dram.held.any (fun i => match mfind s.mesh.pkts i with
      | none => false
      | some k => decide (k.type = .write) && heldBy P (k.addr - dramBase) k.span)
    if P.st ≠ .free && waits then
      let s := setPart s p { P with c := none, withdrawals := satAdd32 P.withdrawals 1 }
      releaseHeld (raise s ((blankEvent clStep sevRecoverable meTimer acNone).atPart s p) p)
    else s)

end Sys2Proof.Machine
end

