-- ==== Sys2Proof/Machine/Host.lean ====
section
/-!
DEFINITION. The host ports: BAR2 and the host windows (R310 to R312), doorbells and completions (R319 to R321), the
commands (R322 to R326, R464), PERST# and the functions (R308, R327, R347).
-/
namespace Sys2Proof.Machine

/-! ### Registers (Tables 12.4 and 12.5) -/

def getFn (s : State) (f : Fn) : FnState := mget {} (portOf s f.port).fns f.fn
def setFn (s : State) (f : Fn) (v : FnState) : State :=
  modPort s f.port (fun P => { P with fns := mset {} P.fns f.fn v })

/-- HC_STATUS as a function of the port reads it. -/
def hcStatus (s : State) (p : HPort) : Nat :=
  (if s.boot.st = .ready then 0xFF else s.boot.step.toNat) <<< 8 + 4 * b2n (degraded s p)
    + 2 * b2n (decide (s.boot.resetting = some .compute)) + b2n (decide (s.boot.st = .ready))

/-- HC_APERTURE as it reads. -/
def hcApertureWord (v : FnState) : Nat := v.base.toNat <<< 30 + b2n v.enable

/-- The sixteen bytes of an MSI-X table entry: address, data, vector control (log entry 106). -/
def MsixEntry.bytes (e : MsixEntry) : List Byte :=
  natBytes 8 e.addr.toNat ++ natBytes 4 e.data.toNat ++ natBytes 4 (b2n e.masked)

/-- The eight bytes that a function reads at an aligned BAR0 offset (Table 12.3): reserved offsets read as zero, and so do the
doorbells (log entry 106). A Cuff-H with no field controller to reach reads zero (R330). -/
def bar0Read (s : State) (f : Fn) (off : Nat) : List Byte :=
  let v := getFn s f
  let n := vectorsOf f.fn
  if !(managed s f.port) then zeros 8
  else if off < 0x1000 then padTo 8 (v.request.drop off)
  else if off < 0x2000 then padTo 8 (v.response.drop (off - 0x1000))
  else if off = 0x2000 then natBytes 8 (hcStatus s f.port)
  else if off = 0x2008 then natBytes 8 (hcApertureWord v)
  else if off = 0x2010 then natBytes 8 (2 * b2n v.busy + 4 * b2n v.done + 8 * b2n v.notify + v.tag.toNat <<< 16)
  else if 0x20000 ≤ off && off < 0x20000 + 16 * n then
    ((mget {} v.msix ((off - 0x20000) / 16)).bytes.drop (off % 16)).take 8
  else if 0x30000 ≤ off && off < 0x30000 + n / 8 then
    natBytes 8 ((List.range 64).foldl (fun a i => a + b2n (mget false v.pba (8 * (off - 0x30000) + i)) * 2 ^ i) 0)
  else zeros 8

/-- HC_APERTURE. -/
def execHcAperture (f : Fn) (val : Word64) (s : State) : Out :=
  .next (
    if (portOf s f.port).linkUp && fnExists s f then
      setFn s f { (getFn s f) with base := val.extractLsb' 30 22, enable := val.getLsbD 0 }
    else s)

/-! ### BAR2 (R310, R330) -/

/-- The partition through which a function may reach an address by BAR2. -/
def bar2Part (s : State) (f : Fn) (a : Nat) : Option Nat :=
  if a < 2 ^ 36 then
    if (windowTile a).inGrid then
      match partOf s (windowTile a) with
      | none => none
      | some p => if (getPart s p).heldBy f.port f.fn then some p else none
    else none
  else if isDram a then
    match mfind s.dram.granules (granuleOf a) with
    | none => none
    | some g =>
      if (getPart s g.owner).heldBy f.port f.fn || (g.shared && decide ((getPart s g.owner).port = f.port)) then
        some g.owner
      else none
  else none

/-- Bytes of BAR2-3 (Table 12.2). -/
def bar2Size (fn : Nat) : Nat := if fn = 0 then 2 ^ 36 else 2 ^ 32

/-- A refused request: counted; a read completes with Unsupported Request. -/
def refuseBar2 (s : State) (f : Fn) (rd : Bool) : State :=
  let s := addPortCount s f.port 4 1
  if rd then emit s (.bar2Unsupported f) else s

/-- BAR2_REQUEST: a read of `len` bytes, or a write of `data`. A PCIe request crosses no 4 KiB boundary. What is not refused is
served, or completes with Completer Abort: in a compute reset, at a degraded port (R330), and where its address has no endpoint
(R219, R250). -/
def execBar2Request (f : Fn) (off len : Nat) (data : Option (List Byte)) (s : State) : Out :=
  .next (
    let n := match data with
      | none => len
      | some l => l.length
    let v := getFn s f
    let a := v.base.toNat * 2 ^ 30 + off
    if !((portOf s f.port).linkUp && fnExists s f && decide (0 < n) && decide (off + n ≤ bar2Size f.fn)
        && decide (off % 4096 + n ≤ 4096)) then s
    else
      let abort (s : State) : State :=
        if data.isNone then emit s (.bar2Abort f (portOf s f.port).nextBar2) else s
      if !v.enable then refuseBar2 s f data.isNone
      else match bar2Part s f a with
        | none => refuseBar2 s f data.isNone
        | some p =>
          if s.boot.resetting.isSome || degraded s f.port then abort s
          else match endpoint s a, hostTile s f.port off with
          | some (dst, u), some src =>
            let id := (portOf s f.port).nextBar2
            let k := { mkPkt (if data.isSome then .write else .readReq) src dst u with
              origin := .bar2 f id, source := .host f.port, addr := a, len := n, payload := data.getD [], part := some p }
            let x := inject s k none
            if !x.2 then abort x.1
            else if data.isSome then x.1
            else modPort x.1 f.port (fun P => { P with bar2 := mput P.bar2 id (f, id), nextBar2 := id + 1 })
          | none, _ => abort (noEndpoint s a)
          | _, none => abort s)

/-! ### Host windows (R311, R312) -/

/-- Why a host-window request is refused, or the region it goes to. -/
def windowRegion (s : State) (port : HPort) (k : Pkt) : Option HostRegion :=
  match mfind (portOf s port).regions (bits k.addr 39 32), k.part with
  | some r, some p =>
    let P := getPart s p
    if r.valid && !(r.readOnly && decide (k.type = .write)) && P.heldBy port r.fn && mayReach s k then some r else none
  | _, _ => none

/-- HOST_WINDOW_REQUEST. At most 512 reads are outstanding at a port (Table 12.1); a poisoned WRITE is discarded (log entry
12). -/
def execHostWindowRequest (pid : Nat) (s : State) : Out :=
  .next (
    match mfind s.mesh.pkts pid with
    | none => s
    | some k =>
      match k.unit with
      | .host port =>
        if !(atEnd s pid k && (k.type = .readReq || k.type = .write) && s.boot.resetting.isNone) then s
        else
        let y := readIn s pid k
        let s := y.1
        let k := y.2
        if k.poison && decide (k.type = .readReq) then addTotal (removePkt s pid) 0x2800 9 1
        else match windowRegion s port k with
          | none => respond (addPortCount (removePkt s pid) port 6 1) k .error stAccess [] false
          | some r =>
            let f : Fn := ⟨port, r.fn⟩
            let a := r.base.toNat + k.addr % 2 ^ 32
            if k.poison then addTotal (removePkt s pid) 0x2800 9 1
            else if k.type = .write then
              respond (hostWrite (removePkt s pid) f a k.payload r.relaxed r.noSnoop) k .writeAck stOk [] false
            else if !(portOf s port).mayAsk then s
            else
              let tag := (portOf s port).nextTag
              let s := hostAsk (removePkt s pid) f a k.len r.noSnoop
              modPort s port (fun P => { P with reads := mput P.reads tag ⟨k, r.fn⟩ })
      | _ => s)

/-- The host has answered with data. -/
def gaveData : HostRes → Bool
  | .data _ => true
  | _ => false

/-- HOST_COMPLETION: the data, or an error response (R312), of a window's read; or the end of a COPY's flush (Table 12.9). -/
def execHostCompletion (port : HPort) (tag : Nat) (res : HostRes) (s : State) : Out :=
  .next (
    match mfind (portOf s port).reads tag with
    | none => flushNext (endFlush s port tag (!(gaveData res))) port
    | some r =>
      let s := modPort s port (fun P => { P with reads := mdel P.reads tag })
      flushNext (match res with
      | .data l => respond (hostRead s port r.req.len) r.req .readRsp stOk (padTo r.req.len l) false
      | _ => respond (addPortCount s port 6 1) r.req .error stAccess [] false) port)

/-! ### Doorbells and completions (R319 to R321) -/

/-- A doorbell write that is ignored (0x6800). -/
def ignoreDoorbell (s : State) (f : Fn) : State := addPortCount s f.port 5 1

/-- SQ_TAIL_DOORBELL: `cmds` is what the ring holds between the old tail and the new. -/
def execSqTailDoorbell (f : Fn) (qp tail : Nat) (cmds : List (List Byte)) (s : State) : Out :=
  .next (
    if !((portOf s f.port).linkUp && fnExists s f) then s
    else match getPair s f.port qp with
      | none => ignoreDoorbell s f
      | some q =>
        let size := 2 ^ q.sqLog2
        if q.fn ≠ f.fn || size ≤ tail then ignoreDoorbell s f
        else
          let n := (tail + size - q.sqTail) % size
          let new := (List.range n).map (fun i => cmds.getD i [])
          pumpPair (putPair s f.port qp { q with sqTail := tail, posted := q.posted ++ new }) f.port qp)

/-- CQ_HEAD_DOORBELL: completion slots are free again. -/
def execCqHeadDoorbell (f : Fn) (qp head : Nat) (s : State) : Out :=
  .next (
    if !((portOf s f.port).linkUp && fnExists s f) then s
    else match getPair s f.port qp with
      | none => ignoreDoorbell s f
      | some q =>
        let size := 2 ^ q.cqLog2
        if q.fn ≠ f.fn || size ≤ head then ignoreDoorbell s f
        else
          let n := (head + size - q.cqHead % size) % size
          pumpPair (putPair s f.port qp { q with cqHead := min q.cqTail (q.cqHead + n) }) f.port qp)

/-- The 16 bytes of a completion entry (Table 12.10). -/
def completionBytes (q : QPair) (qp : Nat) (c : Completion) : List Byte :=
  let pass := q.cqTail / 2 ^ q.cqLog2
  natBytes 2 c.cid ++ natBytes 2 q.sqHead ++ [BitVec.ofNat 8 qp, c.status, BitVec.ofNat 8 (1 - pass % 2), 0]
    ++ natBytes 8 c.result.toNat

/-- COMPLETION_ENTRY: the oldest waiting completion is written at the CQ tail, if a slot is free. -/
def execCompletionEntry (port : HPort) (qp : Nat) (s : State) : Out :=
  .next (
    match getPair s port qp with
    | none => s
    | some q =>
      match q.done with
      | [] => s
      | c :: r =>
        if !(portOf s port).linkUp || q.cqFull then s
        else
          let a := q.cqBase.toNat + 16 * (q.cqTail % 2 ^ q.cqLog2)
          let s := hostWrite s ⟨port, q.fn⟩ a (completionBytes q qp c) false false
          pumpPair (putPair s port qp { q with done := r, cqTail := q.cqTail + 1, pendIrq := q.pendIrq || q.irq }) port qp)

/-- COMPLETION_INTERRUPT: at most once per 2 microseconds, for every entry written since. -/
def execCompletionInterrupt (port : HPort) (qp : Nat) (s : State) : Out :=
  .next (
    match getPair s port qp with
    | none => s
    | some q =>
      let due := match q.lastIrq with
        | none => true
        | some g => decide (g + 2000 ≤ s.clk.gtc)
      if q.pendIrq && due then
        vectorOne (putPair s port qp { q with pendIrq := false, lastIrq := some s.clk.gtc }) ⟨port, q.fn⟩ q.vector
      else s)

/-! ### Commands (R320, R322) -/

/-- Start the pair's next command, if it has this opcode and may start: a failed common check completes it. -/
def startCmd (s : State) (port : HPort) (qp op : Nat) (act : State → QPair → HostCmd → Nat → State) : Out :=
  .next (
    let s := pumpPair s port qp
    match getPair s port qp with
    | none => s
    | some q =>
      match startable q with
      | none => s
      | some c =>
        if c.opcode ≠ op then s
        else
          let c' := { c with started := true }
          let s := putPair s port qp (q.setCmd c c')
          match commonCheck s port q c with
          | some b => endCmd s port qp c.id b 0
          | none => match c.part s with
            | none => endCmd s port qp c.id stNotReady 0
            | some p => act s q c' p)

/-- LOAD_CONFIG (R323): the bytes are copied to the tile, whose configuration path then acts on the bundle. -/
def execLoadConfig (port : HPort) (qp : Nat) (host : List Byte) (s : State) : Out :=
  startCmd s port qp opLoadConfig (fun s _ c p =>
    let t : XY := ⟨c.at 28 2 % 128, c.at 28 2 / 128⟩
    let n := c.at 24 4
    let off := c.at 32 4
    let T := getTile s t
    if !(decide (c.at 30 1 < 4) && decide (off % 32 = 0) && inPad off n && t.inGrid && decide (partOf s t = some p)) then
      endCmd s port qp c.id stRange 0
    else if decide (T.active.toNat = c.at 30 1) && T.run then endCmd s port qp c.id stAccess 0
    else beginRun s port qp c.id (c.at 16 8) (t.y * 2 ^ 29 + t.x * 2 ^ 22 + off) n (!(c.at 31 1).testBit 0) false host)

/-- Every tile of the partition holds the slot valid under one load tag (R324). -/
def launchable (s : State) (ts : List XY) (n : BitVec 2) : Bool :=
  match ts with
  | [] => true
  | t :: _ =>
    let tag := ((getTile s t).getSlot n).tag
    ts.all (fun u => ((getTile s u).getSlot n).valid && decide (((getTile s u).getSlot n).tag = tag))

/-- A tile made ready and started: seed, send-stall timeout, slot, ARG in g1, RUN (R168, R270, R324). -/
def launchTile (P : Part) (n : BitVec 2) (arg : Word64) (s : State) (t : XY) : State :=
  modTile s t (fun T =>
    let T := if P.cfg.seed = 0 then T
      else T.seedDiscard (P.cfg.seed.setWidth 32) ((P.cfg.seed >>> 32).setWidth 32) 0x9E3779B9
        (BitVec.ofNat 32 (t.y <<< 16 ||| t.x))
    let T := if T.active = n then T else T.leaveSlot
    let T := ({ T with active := n }.writeSendStall (P.cfg.stall.setWidth 64)).setG 1 arg
    T.setRun true)

/-- LAUNCH: the partition starts in phase entry 0 (R388). OVERFLOW may be logged again once for each of these tiles (Table 18.2). -/
def execLaunch (port : HPort) (qp : Nat) (s : State) : Out :=
  startCmd s port qp opLaunch (fun s _ c p =>
    let P := getPart s p
    let ts := partTiles s P
    if P.st = .running then endCmd s port qp c.id stInUse 0
    else if 4 ≤ c.at 16 1 || !(launchable s ts (BitVec.ofNat 2 (c.at 16 1))) then endCmd s port qp c.id stRange 0
    else
      let s := forAll (launchTile P (BitVec.ofNat 2 (c.at 16 1)) (BitVec.ofNat 64 (c.at 24 8))) ts s
      let s := setPart s p { P with st := .running, launch := some (port, qp, c.id), pair := some (port, qp), faulted := none }
      let s := setPhase s p 0
      { s with events := { s.events with
        lastLogged := s.events.lastLogged.filter (fun e => !(ts.any (fun t => decide (e.1 = 4294967296 * clOverflow + t.key)))) } })

/-- LAUNCH_COMPLETE: a tile has faulted, or every tile is in HALT. -/
def execLaunchComplete (p : PartId) (s : State) : Out :=
  .next (
    let P := getPart s p
    match P.launch with
    | none => s
    | some (port, qp, id) =>
      if P.st ≠ .running || P.resetting.isSome then s
      else match P.faulted with
        | some t =>
          endCmd (setPart s p { P with launch := none }) port qp id stOk (1 + 2 ^ 8 * t.x + 2 ^ 16 * t.y)
        | none =>
          let ts := partTiles s P
          if ts.all (fun t => decide ((getTile s t).st = .halt)) then
            let s := forAll (fun s t => modTile s t (fun T => T.setRun false)) ts s
            endCmd (setPart s p { P with st := .bound, launch := none }) port qp id stOk 0
          else s)

/-- COPY (R325). -/
def execCopy (port : HPort) (qp : Nat) (host : List Byte) (s : State) : Out :=
  startCmd s port qp opCopy (fun s _ c _ =>
    let sh := (c.at 36 1).testBit 0
    let dh := (c.at 36 1).testBit 1
    if c.at 32 4 = 0 || (sh && dh) then endCmd s port qp c.id stRange 0
    else beginRun s port qp c.id (c.at 16 8) (c.at 24 8) (c.at 32 4) sh dh host)

/-- The lowest region whose copy has faults (R464). -/
def faultyRegion (P : Part) (copy : Nat) : Option Nat :=
  (P.regions.find? (fun e => decide (mget 0 P.faults (2 * e.1 + copy) ≠ 0))).map (·.1)

/-- STEP_COMMIT (R326, R464): the other copy's counts are cleared and held writes go on. -/
def execStepCommit (port : HPort) (qp : Nat) (s : State) : Out :=
  startCmd s port qp opStepCommit (fun s _ c p =>
    let P := getPart s p
    let n := c.at 16 8
    let newer := match P.c with
      | none => true
      | some k => decide (k < n)
    if n ≠ P.n || !newer then endCmd s port qp c.id stRange 0
    else if P.taintN then endCmd s port qp c.id stTainted 0
    else match faultyRegion P (n % 2) with
      | some r => endCmd s port qp c.id stNotReady r
      | none =>
        let s := setPart s p { P with c := some n, faults := P.faults.filter (fun e => decide (e.1 % 2 = n % 2)) }
        endCmd (releaseHeld s) port qp c.id stOk n)

/-- The commands that a FENCE waits for (Table 12.9): every earlier one of this SQ, or of every SQ of the function with
commands for its context, LAUNCH apart. -/
def fenceScope (s : State) (port : HPort) (qp : Nat) (q : QPair) (c : HostCmd) : List (Nat × Nat) :=
  let own := ((q.cmds.takeWhile (fun e => decide (e.id ≠ c.id))).filter (fun e => decide (e.opcode ≠ opLaunch))).map
    (fun e => (qp, e.id))
  if c.at 16 1 = 0 then own
  else own ++ (portOf s port).qps.flatMap (fun e =>
    if e.1 = qp || e.2.fn ≠ q.fn then []
    else (e.2.cmds.filter (fun m => decide (m.ctx = c.ctx) && decide (m.opcode ≠ opLaunch))).map (fun m => (e.1, m.id)))

/-- The command is still outstanding. -/
def outstanding (s : State) (port : HPort) (e : Nat × Nat) : Bool :=
  match getPair s port e.1 with
  | none => false
  | some q => q.cmds.any (fun c => decide (c.id = e.2))

/-- End a FENCE whose scope has completed. -/
def tryFence (s : State) (port : HPort) (qp : Nat) (c : HostCmd) : State :=
  if c.scope.any (outstanding s port) then s else endCmd s port qp c.id stOk 0

/-- SQ_FENCE: a FENCE starts, or one that has started ends. -/
def execSqFence (port : HPort) (qp : Nat) (s : State) : Out :=
  match (getPair s port qp).bind (fun q => q.cmds.find? (fun c => c.started && decide (c.opcode = opFence))) with
  | some c => .next (tryFence s port qp c)
  | none => startCmd s port qp opFence (fun s q c _ =>
      let c' := { c with scope := fenceScope s port qp q c }
      tryFence (modPair s port qp (fun q => q.setCmd c c')) port qp c')

/-- VALUE goes to ADDR (R326). -/
def fireSignal (s : State) (port : HPort) (qp : Nat) (c : HostCmd) (p : Nat) : State :=
  let v := natBytes 8 (c.at 24 8)
  let r : CopyRun := ⟨0, c.at 16 8, 8, true, (c.at 40 1).testBit 0, v, 1, [], none, false⟩
  driveRun (writeSeg s port qp c.id p r 0 v) port qp c.id

/-- The step that a SIGNAL waits for has been reached, or it waits for none. -/
def signalDue (s : State) (p : Nat) (c : HostCmd) : Bool :=
  !(c.at 40 1).testBit 1 || decide (c.at 32 8 ≤ (getPart s p).n)

/-- SIGNAL. A vector beyond the table is out of range whether or not IRQ is set. -/
def execSignal (port : HPort) (qp : Nat) (s : State) : Out :=
  startCmd s port qp opSignal (fun s q c p =>
    if c.at 16 8 % 8 ≠ 0 || vectorsOf q.fn ≤ c.at 41 2 then
      endCmd s port qp c.id stRange 0
    else if signalDue s p c then fireSignal s port qp c p
    else s)

/-- A waiting SIGNAL of the CID whose step has been reached. -/
def waitingSignal (s : State) (cid : Nat) (c : HostCmd) : Bool :=
  c.started && decide (c.cid = cid) && decide (c.opcode = opSignal) && c.run.isNone && (match c.part s with
    | none => false
    | some p => signalDue s p c && (getPart s p).resetting.isNone)

/-- SIGNAL_ON_STEP: a waiting SIGNAL fires, the oldest of its CID. -/
def execSignalOnStep (port : HPort) (qp cid : Nat) (s : State) : Out :=
  .next (
    match (getPair s port qp).bind (fun q => q.cmds.find? (waitingSignal s cid)) with
    | none => s
    | some c =>
      match c.part s with
      | none => s
      | some p => fireSignal s port qp c p)

/-! ### PERST#, functions (R327, R347, R308) -/

/-- The contexts bound to a port's partitions are reset. -/
def resetContextsOf (s : State) (port : HPort) : State :=
  forAll (fun s (e : Nat × Part) =>
    if e.2.st ≠ .free && decide (e.2.port = port) && e.2.ctx.isSome then beginContextReset s e.1 false false else s) s.parts s

def setPerst (s : State) (port : HPort) (b : Bool) : State :=
  match port with
  | .a => { s with pins := { s.pins with perstA := b } }
  | .b => { s with pins := { s.pins with perstB := b } }

/-- PERST: PERST# is asserted, or the link is lost (R327). -/
def execPerst (port : HPort) (s : State) : Out :=
  .next (
    let s := setPerst s port false
    if (portOf s port).linkUp then resetContextsOf (resetPort (linkDown s port) port) port else s)

/-- The link trains at a generation from 4 up to the highest of 0x6802, and at ×16, or ×8 where training finds failed lanes:
what the host and the lanes give is a free value (R306, log entry 16). -/
def trainLink (s : State) (port : HPort) : State :=
  let i := match port with
    | .a => 1
    | .b => 2
  let hi := liveNat s 0x6802 i 6
  let x := freeVal s
  modPort x.2 port (fun P => { P with
    linkUp := true, gen := hi - x.1 / 2 % (hi - 3), width := if x.1 % 2 = 0 then 16 else 8 })

/-- PERST_RELEASE. One that comes before PWR_GOOD counts when PWR_GOOD goes high (R474), which PWR_EN_HIGH sees to; in a full
reset the lanes are idle. -/
def execPerstRelease (port : HPort) (s : State) : Out :=
  .next (
    let s := setPerst s port true
    if s.pins.pwrGood && !s.boot.silent then trainLink s port else s)

/-- What the Aceel mailbox of a function holds is gone. -/
def dropMailbox (s : State) (f : Fn) : State :=
  let e := Endpoint.mailbox f
  { s with aceel := { s.aceel with
    snaps := s.aceel.snaps.filter (fun x => decide (x.1 ≠ e))
    stages := s.aceel.stages.filter (fun x => decide (x.1 ≠ e))
    subs := s.aceel.subs.filter (fun x => decide (x.ep ≠ e))
    waiting := s.aceel.waiting.filter (fun w => decide (w.req.ep ≠ e)) } }

/-- FUNCTION_RESET: the function's registers and its mailbox's subscriptions (R347). -/
def execFunctionReset (f : Fn) (s : State) : Out :=
  .next (if (portOf s f.port).linkUp && fnExists s f then dropMailbox (setFn s f {}) f else s)

/-- VF_ENABLE: VF 1 to VF n exist; a function that no longer exists holds nothing (R308). -/
def execVfEnable (port : HPort) (n : Nat) (s : State) : Out :=
  .next (
    if (portOf s port).linkUp && decide (n ≤ 31) then
      let gone := (List.range 32).filter (fun i => decide (n < i))
      let s := forAll (fun s i => dropMailbox (setFn s ⟨port, i⟩ {}) ⟨port, i⟩) gone s
      modPort s port (fun P => { P with vfs := n })
    else s)

end Sys2Proof.Machine
end

