-- ==== Sys2Proof/Machine/AceelFrame.lean ====
section
/-!
DEFINITION. Aceel frames (R339, Table 13.4), what carries them (R348, R351, R352), the answers kept for a retry (R349) and the
requests whose action is not complete yet (R344).
-/
namespace Sys2Proof.Machine

/-! ### Frames (R339, Table 13.4) -/

def aceelHeader (op flags ix sub st tag len off : Nat) : List Byte :=
  one op ++ one flags ++ natBytes 2 ix ++ one sub ++ one st ++ natBytes 2 tag ++ natBytes 4 len ++ natBytes 4 off

/-- A request as its frame carries it. -/
def reqFrame (h : Req) (data : List Byte) : List Byte :=
  aceelHeader h.op h.flags h.ix h.sub h.status h.tag h.len h.off ++ data

def blockOp (op : Nat) : Bool := decide (op = 3) || decide (op = 4)

/-- A response: OP with bit 7 set, the request's INDEX, SUBINDEX and TAG, and OFFSET in a block operation; `len` is LENGTH. -/
def reply (h : Req) (st : Byte) (len : Nat) (data : List Byte) : List Byte :=
  aceelHeader (h.op % 128 + 128) 0 h.ix h.sub st.toNat h.tag len (if blockOp h.op then h.off else 0) ++ data

/-- A response without payload. -/
def bareReply (h : Req) (st : Byte) : List Byte := reply h st 0 []
def wholeReply (h : Req) (d : List Byte) : List Byte := reply h stOk d.length d

/-! ### What carries a frame (R351, R352) -/

/-- An MCTP message of type 0x7E: Vangoa's PCI vendor ID, most significant byte first, the selector 0x01, one Aceel frame. -/
def vendorMessage (frame : List Byte) : List Byte := one 0x7E ++ beBytes 2 Config.vendorId.toNat ++ one 1 ++ frame

/-- The packets of an MCTP message, each of the 64-byte baseline transmission unit but the last (R351). Their transport headers are
DSP0236's (log entry 19). -/
def mctpPackets (message : List Byte) : List (List Byte) := chunks 64 message

/-- Packets make up a message of n bytes: the first starts it and no other does, the last ends it and no other does, their sequence
numbers rise by one modulo 4, and each but the last carries 64 bytes (R351; DSP0236, log entry 19). -/
def assemblesGo : Nat → Nat → List MctpPacket → Bool
  | _, _, [] => false
  | q, n, [p] => p.eom && decide (p.seq = q) && decide (p.bytes = n) && decide (0 < n) && decide (n ≤ 64)
  | q, n, p :: p' :: r => !p.eom && !p'.som && decide (p.seq = q) && decide (p.bytes = 64) && assemblesGo ((q + 1) % 4) (n - 64) (p' :: r)
def assembles (n : Nat) : List MctpPacket → Bool
  | [] => false
  | p :: r => p.som && decide (p.seq < 4) && assemblesGo p.seq n (p :: r)

/-- How a frame leaves for an endpoint: in MCTP packets, or in one datagram from port 0xCE5A with hop limit 255. -/
def carry (ep : Endpoint) (frame : List Byte) : Carried :=
  match ep with
  | .mctp _ _ => ⟨mctpPackets (vendorMessage frame), 0, 0⟩
  | .udp _ _ => ⟨[frame], 0xCE5A, 255⟩
  | _ => ⟨[], 0, 0⟩

/-- A frame on its way to an endpoint. -/
def sent (ep : Endpoint) (frame : List Byte) : Output := .aceel ep frame (carry ep frame)

/-! ### Answers (R344, R349, R350) -/

/-- What a retry repeats: OP, INDEX, SUBINDEX and TAG, and of a block operation its OFFSET and LENGTH (R349, log entry 88). -/
def reqKey (h : Req) : Req := { h with flags := 0, status := 0, flashOk := true, env := {} }

/-- The response leaves. A mailbox whose function has been reset meanwhile receives none. -/
def deliverReply (s : State) (ep : Endpoint) (frame : List Byte) : State :=
  match ep with
  | .mailbox f =>
    let v := getFn s f
    if v.busy then setFn s f { v with ready := some frame } else s
  | _ => emit s (sent ep frame)

/-- Keep the answer of an endpoint's last 8. -/
def keepAnswer (s : State) (h : Req) (data frame : List Byte) : State :=
  if s.boot.silent then s
  else
    let mine := (s.aceel.answered.filter (fun a => decide (a.ep = h.ep))).take 7
    let other := s.aceel.answered.filter (fun a => decide (a.ep ≠ h.ep))
    { s with aceel := { s.aceel with answered := ⟨h.ep, reqKey h, data, frame, s.clk.gtc⟩ :: mine ++ other } }

/-- The answer is kept for a retry and delivered. -/
def answer (s : State) (h : Req) (data frame : List Byte) : State := deliverReply (keepAnswer s h data frame) h.ep frame

/-- No live tile of the field zeroises. -/
def fieldZeroed (s : State) (f : Nat) : Bool := (fieldTiles f).all (fun t => !(tileLive s t) || !(getTile s t).zeroising)

/-- What a request awaits has ended: the context reset, which the field controllers of the partition confirm (Table 18.5, step 4),
and the zeroises. -/
def Waits.ended (w : Waits) (s : State) : Bool :=
  w.fields.all (fieldZeroed s) && (match w.part with
    | none => true
    | some p => (getPart s p).resetting.isNone && w.fields.all (fun f => !(fieldAlive s f) || !(getField s f).hung))

/-- Requests whose reset and zeroises have ended are answered OK (R344). -/
def answerWaiting (s : State) : State :=
  let l := s.aceel.waiting
  forAll (fun s (w : Waits) => answer s w.req w.data (bareReply w.req stOk)) (l.filter (fun w => w.ended s))
    { s with aceel := { s.aceel with waiting := l.filter (fun w => !(w.ended s)) } }

end Sys2Proof.Machine
end

