-- ==== Sys2Proof/Machine/Recover.lean ====
section
/-!
DEFINITION. The ends of resets and what a bring-up finds: the end of a context reset (R459, R465), a field's death (R33, R35,
R37, R251, R383), the choice of the boot master (R398, R451), and the confirmation of the Cloak map, the seams and the
DRAM channels (R17 to R22, R235, R420 to R423, R436, R441, R442).
-/
namespace Sys2Proof.Machine

/-! ### The end of a context reset (Table 18.5, steps 4 and 5) -/

/-- The partition after its tiles have been reset: the step number is C, or 0 (R465), and a RUNNING partition is BOUND. -/
def Part.afterReset (P : Part) : Part :=
  { P with
    n := P.c.getD 0, taint := false, taintN := false, st := if P.st = .running then .bound else P.st
    arrived := [], launch := none, faulted := none, resetting := none }

/-- The partition's context is bound no more (R315). -/
def freeContext (s : State) (p : Nat) : State :=
  let P := getPart s p
  match P.ctx with
  | none => s
  | some c =>
    let s := { s with ctxs := mdel s.ctxs c }
    setPart s p { P with ctx := none, st := if P.st = .outOfService || P.st = .free then P.st else .idle }

/-- A reset ends: the ceiling is recomputed from the fmax values then held (R372). -/
def renewCeiling (s : State) (p : Nat) : State := modPart s p (fun P => { P with ceiling := ceilingOf s p })

/-- 0x6000:07: decision, cause, KIND, partition, duration in microseconds. -/
def resetRecord (s : State) (start cause kind p : Nat) : List Byte :=
  natBytes 8 start ++ natBytes 8 cause ++ [BitVec.ofNat 8 kind, BitVec.ofNat 8 p, 0, 0]
    ++ natBytes 4 ((gtcMaster s - start) / 1000)

/-- A rollback is counted, raised and told to the owner (R465, Table 18.5). -/
def rollbackDone (s : State) (p : Nat) : State :=
  let s := modPart s p (fun P => { P with rollbacks := satAdd32 P.rollbacks 1 })
  vectorOwner (raise s ((blankEvent clStep sevRecoverable meFirmware acContext).atPart s p) p) p

/-- Steps 4 and 5 of a context reset, of which nothing is left to be decided. -/
def endContextReset (s : State) (p : Nat) (r : CtxReset) : State :=
    let P := getPart s p
    let s := forAll (resetTile true) (partTiles s P) s
    let s := match P.ctx with
      | some c => failCmds s (fun m => decide (m.ctx = c))
      | none => s
    let s := { s with mesh := { s.mesh with flushing := s.mesh.flushing.filter (fun q => decide (q ≠ p)) } }
    let s := renewCeiling (modPart s p Part.afterReset) p
    let s := raise s ((blankEvent clReset sevInfo meFirmware acContext).atPart s p) p
    let s := { s with boot := { s.boot with
      contexts := s.boot.contexts + 1, lastReset := resetRecord s r.start r.cause 1 p } }
    let s := if r.rollback then rollbackDone s p else s
    answerWaiting (if r.unbind then freeContext s p else s)

/-- The context reset of a partition ends: the events of its tiles that are under way are forwarded first, and where one of them
decides a compute reset, that one abandons the context reset at this step (R460). -/
def finishContextReset (s : State) (p : Nat) : State :=
  let s := if (getPart s p).resetting.isSome then forAll forwardAll (partTiles s (getPart s p)) s else s
  match (getPart s p).resetting with
  | none => s
  | some r => if s.boot.resetting.isSome then s else endContextReset s p r

/-- CONTEXT_RESET_DONE: the mesh has been flushed (step 3), the zeroises of step 4 have ended in every tile whose clock runs, every
live field's controller confirms its field, which one that hangs does not, and a device-wide reset has not taken its place (R460). -/
def execContextResetDone (p : PartId) (s : State) : Out :=
  .next (
    match (getPart s p).resetting with
    | none => s
    | some r =>
      if r.flushed && s.boot.resetting.isNone
          && (getPart s p).fields.all (fun f => !(fieldAlive s f) || !(getField s f).hung)
          && (partTiles s (getPart s p)).all (fun t => !(getTile s t).zeroising || !(zeroClock s t)) then finishContextReset s p
      else s)

/-! ### The end of a zeroise (R74) -/

/-- ZEROISE_DONE: waiting accesses proceed, a configuration load that waits for its bundle and the streams among them (R74), and a
request that awaited it is answered (R344). -/
def execZeroiseDone (t : XY) (s : State) : Out :=
  .next (
    if (getTile s t).zeroising && zeroClock s t then
      let s := modTile s t Tile.endZero
      answerWaiting (if unitRuns s t then pump (nextCload s t) t else s)
    else s)

/-! ### Field controllers (R398, R451) -/

/-- The order of election. -/
def electOrder : List Nat :=
  [24, 18, 30, 23, 25] ++ (List.range 49).filter (fun f => !([24, 18, 30, 23, 25].contains f))

/-- A field controller that can hold the dictionary: it was a candidate at the election, its field is alive with PLL-F locked, and it
is not hung (R398, R451, R454). Its self-check and its reading of a NOR device are not made again in service (log entry 150). -/
def candidate (s : State) (f : Nat) : Bool :=
  s.boot.candidates.contains f && fieldAlive s f && (getField s f).pllF && !(getField s f).hung

/-- The standby is the next candidate after the boot master. -/
def nameStandby (s : State) : State :=
  let after := match s.boot.master with
    | none => []
    | some m => (electOrder.dropWhile (fun f => decide (f ≠ m))).drop 1
  { s with boot := { s.boot with standby := after.find? (candidate s) } }

/-! ### A field dies (Table 15.4) -/

/-- DRAM controller complexes of a field (Table 1.8). -/
def complexesOf (f : Nat) : List Nat := (List.range 28).filter (fun dc => decide ((edgeOf dc).1 = f))

/-- A lost complex is eight faulted channels (R37, R235). -/
def loseComplex (s : State) (dc : Nat) : State :=
  let s := setComplex s dc { (getComplex s dc) with lost := true }
  forAll (fun s ch => setChannel s ch { (getChannel s ch) with faulted := true }) ((List.range 8).map (· + 8 * dc)) s

/-- The sync pulses after the loss of a field: F18 takes over from F24, then nobody (R376); the change is raised. -/
def loseSync (s : State) (f : Nat) : State :=
  let new : Byte := if f = 24 && s.clk.sync = 0 then (if fieldAlive s 18 then 1 else 0xFF)
    else if f = 18 && s.clk.sync = 1 then 0xFF else s.clk.sync
  if new = s.clk.sync then s
  else
    let s := { s with clk := { s.clk with sync := new } }
    raise s ((blankEvent clFieldTime sevRecoverable meMonitor acNone).atField s f) f

/-- The router outside a field at which the rest of a train stands behind flits that are lost with the field: its next hop is fenced. None
where no flit is left behind. -/
def restAt (k : Pkt) (f : Nat) : Option XY :=
  ((k.trail.dropWhile (fun x => decide (x.1.b.field ≠ f))).find? (fun x => decide (x.1.b.field ≠ f))).map (fun x => x.1.b)

/-- The router before the fence discards what is left of such a train (R251). -/
def discardRest (f : Nat) (s : State) (k : Pkt) : State :=
  match restAt k f with
  | none => s
  | some r => routerError (addTotal s 0x2800 6 1) { k with at_ := r }

/-- The field is dead: its tiles, routers and clocks are gone, its complexes are lost, the partitions that use it go out of service, and
index 3 is measured anew. A train with flits in its routers is lost; where its rest stands before the fence, the router there discards it
as R251 says, and else it is neither counted nor answered, which no rule states (DESIGN CHOICE, log entry 159). -/
def fieldDies (s : State) (f : Nat) (how : FieldPower) : State :=
  let D := getField s f
  let s := setField s f { D with
    power := how, watts := 0, op := 4, pllC := false, pllF := false, stopped := false, cyc := 0, half := false, gtcOff := 0
    gtcHeld := false, cap := 16, sram := [], core := {}, thermal := 16, hottest := 0, hung := false, missed := 0, hangs := [] }
  let s := { s with tiles := s.tiles.filter (fun e => decide ((XY.ofKey e.1).field ≠ f)) }
  let stays (k : Pkt) : Bool := decide (k.at_.field ≠ f) && k.trail.all (fun x => decide (x.1.b.field ≠ f))
  let cut := (s.mesh.pkts.filter (fun e => !(stays e.2))).map (·.2)
  let keep := s.mesh.pkts.filter (fun e => stays e.2)
  let s := { s with
    mesh := { s.mesh with pkts := keep, waiting := s.mesh.waiting.filter (fun k => decide (k.dst.field ≠ f)) }
    dram := { s.dram with held := s.dram.held.filter (fun i => (mfind keep i).isSome) } }
  let s := { s with
    rows := mmap (fun k (w : Row) => if k / 16 = f then { w with visit := false, due := [], waiting := [] } else w) s.rows
    sites := (mmap (fun k (v : Site) => if k / 272 = f then { v with temp := 0, zeroLeft := 0 } else v) s.sites).filter (fun e => decide (e.2 ≠ ({} : Site)))
    blocks := (mmap (fun b (v : Block) => if b / 16 = f then { pace := v.pace } else v) s.blocks).filter (fun e => decide (e.2 ≠ ({} : Block))) }
  let s := forAll (discardRest f) cut (forAll loseComplex (complexesOf f) s)
  let s := match partOfField s f with
    | none => s
    | some p => outOfService s p
  let s := answerWaiting (loseSync (measureCloak s) f)
  if s.boot.standby = some f then nameStandby s else s

/-! ### Seams (R17, R18, R22) -/

/-- A lane of a bundle is lost: class 0x0B with the lane's number (R20, R401). -/
def raiseLane (b : Nat) (s : State) (n : Nat) : State :=
  raise s { ((blankEvent clSeamLane sevCorrected meMonitor acNone).atField s (bundleFields b).1) with lane := some n } b

/-- Training has judged a bundle's lanes: those that the repair map did not know, and a link found dead, are raised (R401). -/
def trainBundle (s : State) (x : Nat × List Nat) : State :=
  let v := mget {} s.bundles x.1
  let v' : Bundle := { Bundle.trained x.2 with lane := v.lane }
  let s := { s with bundles := mset {} s.bundles x.1 v' }
  let s := forAll (raiseLane x.1) (x.2.filter (fun n => decide (n < 34) && !(v.known.contains n))) s
  if v'.dead && !v.dead then raise s (blankEvent clSeamLink sevRecoverable meMonitor acNone) x.1 else s

/-! ### DRAM channels (R235, R37) -/

/-- Training at a boot or a full reset. A channel found faulted now goes in the event log (R401); nothing is to be reset for it (DESIGN
CHOICE, log entry 151). -/
def trainChannel (bad : List Nat) (s : State) (ch : Nat) : State :=
  if (getComplex s (ch / 8)).lost then s
  else if bad.contains ch then
    if (getChannel s ch).faulted then s
    else raise (setChannel s ch { (getChannel s ch) with faulted := true }) (complexEvent s (ch / 8) 0 clDramUe sevFatal meEcc acNone)
      (ch / 8)
  else if (getChannel s ch).faulted then retrainChannel s ch
  else s

/-- Complexes of live fields are back. -/
def findComplex (s : State) (dc : Nat) : State :=
  if fieldAlive s (edgeOf dc).1 && (getComplex s dc).lost then setComplex s dc { (getComplex s dc) with lost := false }
  else s

/-! ### Sites and rows -/

def rowSites (f r : Nat) : List SiteId := (List.range 17).map (fun pc => ⟨f, r, pc⟩)

/-- A site is found failing by BIST or by an Ochre kernel, whose id is recorded: it is recorded and raised, once (R423, R425,
R438). -/
def siteFound (s : State) (x : SiteId × Byte × Byte) : State :=
  if (getSite s x.1).failed.isSome || !x.1.valid || !(fieldAlive s x.1.field) then s
  else
    let m := if x.2.1 = 2 then meOchre else meBist
    let e := (blankEvent clSiteFailed sevRecoverable m acCloak).atSite s x.1
    raise (recordDefect s x.1 x.2.1) { e with ochre := if x.2.1 = 2 then x.2.2.toNat else 0 } x.1.key

/-- A site's router fails BIST at a bring-up, which is an item of the site's BIST (R408, R423). -/
def routerFails (s : State) (a : SiteId) : State :=
  if (getSite s a).failed.isSome || !a.valid || !(fieldAlive s a.field) then s
  else siteFound (setSite s a { (getSite s a) with routerBad := true }) (a, 1, 0)

/-- The fallback path tests a field's sites row by row from row 0 (R422): a site is unproven where one of its row or of an
earlier row of its field has not been tested. -/
def untested (l : List SiteId) (a : SiteId) : Bool := l.any (fun b => decide (b.field = a.field) && decide (b.row ≤ a.row))

/-- The sites of the fields that such a list names which are unproven (R423). -/
def leaveUnproven (l : List SiteId) (s : State) : State :=
  let sites := ((List.range 49).filter (fun f => fieldAlive s f && l.any (fun b => decide (b.field = f)))).flatMap
    (fun f => (List.range 16).flatMap (rowSites f))
  forAll (fun s a => if untested l a && (getSite s a).failed.isNone then setSite s a { (getSite s a) with unproven := true } else s)
    sites s

/-- What a margin sweep of a bring-up has measured of a site is judged (R372, R420, R423). A failed site and one without power
are not tested. A site that misses a point even at +20 mV is bin-cloaked where it is its row's spare; otherwise, where the
spare is free, it is a site that fails a BIST item; otherwise the ceiling that is computed at the end of the bring-up counts
it. A bin-cloaked site that its re-test has returned is its row's spare again. `keep`: the values replace those held. -/
def sweepSite (keep : Bool) (l : List (SiteId × Nat × Nat)) (s : State) (a : SiteId) : State :=
  if (getSite s a).failed.isSome || !a.valid || !(fieldAlive s a.field) then s
  else
    let vs := (l.filter (fun x => decide (x.1 = a))).map (·.2)
    let s := if keep then measureFmax s a vs else s
    let w := getRow s a.field a.row
    let free := (decide (w.kind = .spare) || decide (w.kind = .binCloaked)) && (rowSites a.field a.row).all (fun b => (getSite s b).failed.isNone && !(getSite s b).binCloaked)
    if sweepOk vs || !free then s
    else if a.pc = w.e then addTotal (setSite s a { (getSite s a) with binCloaked := true }) 0x5000 7 1
    else siteFound s (a, 1, 0)

/-- What quick BIST measures: OP0 and OP4 at every trim (Table 17.1). -/
def quickSweep (l : List (SiteId × Nat × Nat)) : List (SiteId × Nat × Nat) :=
  l.filter (fun x => decide (x.2.1 / 3 = 0) || decide (x.2.1 / 3 = 4))

/-- The sites that a list of measurements names, once each. -/
def sitesIn (l : List (SiteId × Nat × Nat)) : List SiteId :=
  l.foldl (fun m x => if m.contains x.1 then m else m ++ [x.1]) []

/-- OP0 at +20 mV as the re-test of a bring-up has measured it; the value held where it has not. -/
def retestUnits (l : List (SiteId × Nat × Nat)) (s : State) (a : SiteId) : Nat :=
  match l.find? (fun x => decide (x.1 = a) && decide (x.2.1 = 2)) with
  | some x => x.2.2 % 4096
  | none => fmaxUnits s a 2

/-- A bin-cloaked site that now meets OP0 at +20 mV can be the spare again (R442). -/
def retestBin (l : List (SiteId × Nat × Nat)) (s : State) (a : SiteId) : State :=
  if (getSite s a).binCloaked && decide (cclkUnits 0 ≤ retestUnits l s a) then
    setSite s a { (getSite s a) with binCloaked := false }
  else s

/-- The confirmed row: broken with two lost sites, otherwise without the one lost, or without an unproven one, or with its
spare at PC16 (Table 1.7, R423, R436, R441). Only a cold boot and a full reset make a broken row whole again. -/
def confirmedRow (s : State) (full : Bool) (f r : Nat) : Row :=
  let w := getRow s f r
  let bad := (rowSites f r).filter (fun a => (getSite s a).failed.isSome)
  let bin := (rowSites f r).filter (fun a => (getSite s a).failed.isNone && (getSite s a).binCloaked)
  let open_ := (rowSites f r).filter (fun a => (getSite s a).failed.isNone && (getSite s a).unproven)
  let x : RowKind × Nat :=
    if w.kind = .broken && !full then (.broken, 16)
    else match bad, bin with
      | [], [] => match open_ with
        | [] => (.spare, 16)
        | a :: _ =>
          if w.kind = .cloaked && open_.any (fun b => decide (b.pc = w.e)) then (.cloaked, w.e) else (.cloaked, a.pc)
      | [a], [] => (.cloaked, a.pc)
      | [], [a] => (.binCloaked, a.pc)
      | _, _ => (.broken, 16)
  { w with kind := x.1, e := x.2, visit := false, due := [], waiting := [] }

/-- Confirm one row; a spare taken for a failing site counts in 0x5000:06. -/
def confirmRow (full : Bool) (s : State) (x : Nat × Nat) : State :=
  let w := getRow s x.1 x.2
  let v := confirmedRow s full x.1 x.2
  let s := setRow s x.1 x.2 v
  if w.kind = .spare && v.kind = .cloaked && (getSite s ⟨x.1, x.2, v.e⟩).failed.isSome then addTotal s 0x5000 6 1 else s

def allRows : List (Nat × Nat) := (List.range 784).map (fun i => (i / 16, i % 16))

/-- Confirm the Cloak map (R442); it is measured where it has changed (R412). -/
def confirmMap (s : State) (full : Bool) : State :=
  measureCloak (forAll (confirmRow full) (allRows.filter (fun x => fieldAlive s x.1)) s)

/-! ### The Woad broadcast (R408) -/

/-- The Woad payload of the running image, at most 2 MiB: as written, or as delivered. -/
def woadPayload (s : State) : List Byte :=
  let b := decide (s.sec.booted = 1)
  ((if b then s.sec.woadB else s.sec.woadA).getD (Config.imageWoad b)).take 0x200000

/-- Where it stands in granule 1,343: behind the crash area (log entry 117). -/
def woadBase : Nat := crashBase + crashSize

/-- DRAM training is over: granule 1,343 is rewritten, its poison marks with it, and holds the Woad payload (Table 16.1). -/
def rewriteReserved (s : State) : State :=
  let top := 1344 * 2 ^ 30
  rewriteDram s crashBase top (sparseBytes woadBase (woadPayload s))

/-- A site takes and forwards the broadcast: it is powered and has passed router BIST. A failed site is not tested again (R420), so what
its router has failed is remembered beside the defect map, whose records do not tell one item of BIST from another (DESIGN CHOICE, log
entry 149). -/
def siteRouter (s : State) (f r pc : Nat) : Bool := fieldAlive s f && !(getSite s ⟨f, r, pc⟩).routerBad

/-- From the entry on row 8 the payload runs along the row in both directions, and from each site of that row along its
column, over direct links only: a site that cannot forward ends the run. -/
def woadReaches (s : State) (entry : Nat) (a : SiteId) : Bool :=
  (List.range 17).all (fun pc => decide (pc < min entry a.pc) || decide (max entry a.pc < pc) || siteRouter s a.field 8 pc)
    && (List.range 16).all (fun r => decide (r < min 8 a.row) || decide (max 8 a.row < r) || siteRouter s a.field r a.pc)

/-- The seam between two neighbouring fields carries the broadcast: one of its REQ links is not dead. -/
def seamLive (s : State) (f g : Nat) : Bool :=
  let lo := min f g
  let cs := if f / 7 = g / 7 then (List.range 16).map (fun r => 16 * (6 * (lo / 7) + lo % 7) + r)
    else (List.range 17).map (fun pc => 672 + 17 * lo + pc)
  cs.any (fun c => !(s.bundles.any (fun e => e.2.dead && decide (e.1 / 92 = c) && decide (bundleNet e.1 = 1))))

def fieldsTouch (f g : Nat) : Bool :=
  (decide (f / 7 = g / 7) && (decide (f + 1 = g) || decide (g + 1 = f))) || decide (f + 7 = g) || decide (g + 7 = f)

/-- The spanning tree from the boot master's field, with the entry of each field it reaches: the seam-side site of row 8, PC16
for a field entered from the east and PC0 for any other (log entry 118). -/
def woadTree (s : State) : Nat → List (Nat × Nat) → List (Nat × Nat)
  | 0, l => l
  | n + 1, l =>
    let new := (List.range 49).filterMap (fun g =>
      if l.any (fun x => decide (x.1 = g)) || !(fieldAlive s g) then none
      else (l.find? (fun x => fieldsTouch x.1 g && seamLive s x.1 g)).map (fun x => (g, if x.1 = g + 1 then 16 else 0)))
    woadTree s n (l ++ new)

def woadFields (s : State) : List (Nat × Nat) :=
  match s.boot.master with
  | none => []
  | some m => woadTree s 48 [(m, 0)]

/-- Slot 0 as the payload loads it with Ochre, whose section the spec does not lay out. -/
def ochreSlot : Slot :=
  { valid := true, ibuf := ((List.range 4096).map (fun k => (k, Config.ochreWord k))).filter (fun e => decide (e.2 ≠ 0)) }

/-- The broadcast: every site that has passed router BIST, excluded ones too, holds the payload from local offset 0, by the mesh or
over the debug path from its field controller; it loads Ochre into slot 0 there. -/
def woadBroadcast (s : State) (fails : List SiteId) : State :=
  let tree := woadFields s
  let path (a : SiteId) : WoadPath :=
    match tree.find? (fun x => decide (x.1 = a.field)) with
    | none => .debug
    | some x => if woadReaches s x.2 a && !(fails.contains a) then .mesh else .debug
  let sites := ((List.range 49).flatMap (fun f => (List.range 16).flatMap (rowSites f))).filter (fun a => siteRouter s a.field a.row a.pc)
  let s := forAll (fun s a => setSite s a { (getSite s a) with woad := some (path a) }) sites s
  let l := woadPayload s
  forAll (fun s a => match tileAt s a with
    | none => setSite s a { (getSite s a) with mem := Memory.store [] 0 l, slot := ochreSlot }
    | some t => modTile s t (fun T => { (T.setSlot 0 ochreSlot) with mem := Memory.store [] 0 l, ecc := [] })) sites s

/-! ### The bring-up of the sites -/

/-- What BIST and the margin sweeps find, then the Woad broadcast, what the Ochre set finds, the map and the trims, in the order of
Tables 16.1, 16.4 and 16.5. -/
def bringSites (s : State) (full keep : Bool) (m : BringUp) : State :=
  let s := forAll routerFails m.routerFails s
  let s := forAll siteFound (m.failing.filter (fun x => decide (x.2.1 ≠ 2))) s
  let s := leaveUnproven m.unproven s
  let s := if full then forAll (retestBin m.fmax) ((List.range 49).flatMap (fun f => (List.range 16).flatMap (rowSites f))) s else s
  let s := forAll (sweepSite keep m.fmax) (sitesIn m.fmax) s
  let s := woadBroadcast s m.woadFails
  let s := forAll siteFound (m.failing.filter (fun x => decide (x.2.1 = 2))) s
  let s := confirmMap s full
  forAll setTrims ((List.range 49).filter (fieldAlive s)) s

/-! ### Tiles and partitions after a device-wide reset -/

/-- Events are forwarded, then every logical tile stands at the reset column of Table 2.15; the zeroise of every scratchpad whose CCLK
runs has ended by the READY that this precedes (Table 16.1, step 9), and any other goes on zeroising (R74). Events that a hung controller
has not forwarded wait on (R453). -/
def resetAllTiles (s : State) : State :=
  let s := forAll (fun s (e : Nat × Tile) => forwardAll s (XY.ofKey e.1)) (s.tiles.filter (fun e => tileLive s (XY.ofKey e.1))) s
  { s with
    tiles := ((allTiles.filter (tileLive s)).map (fun t => (t.key, reseed s t
      { ((getTile s t).kept (getField s t.field).hung false) with zeroising := !(zeroClock s t) }))).filter (fun e => decide (e.2 ≠ {}))
    sites := (mmap (fun _ (v : Site) => { v with bad := [], mem := [], slot := {}, zeroLeft := 0 }) s.sites).filter (fun e => decide (e.2 ≠ ({} : Site))) }

/-- A partition loses service when the bring-up leaves it with a dead field or a broken row (R316). -/
def partLost (s : State) (P : Part) : Bool :=
  P.fields.any (fun f => !(fieldAlive s f) || (List.range 16).any (fun r => decide ((getRow s f r).kind = .broken)))

/-- Every partition: what a context reset left is completed (R460), the step number is C (R465), the ceiling is renewed. -/
def partAfter (s : State) (p : Nat) : State :=
  let P := getPart s p
  let s := renewCeiling (setPart s p P.afterReset) p
  let s := match P.resetting with
    | none => s
    | some r =>
      let s := if r.rollback then rollbackDone s p else s
      if r.unbind then freeContext s p else s
  if partLost s (getPart s p) then outOfService s p else s

/-- The part of a bring-up that every device-wide reset shares: tiles, partitions, connections, the arrays leave
self-refresh, and the flushes are over. -/
def comeBack (s : State) : State :=
  let s := forAll (fun s (e : Nat × Part) => if e.2.st = .free then s else partAfter s e.1) s.parts (resetAllTiles s)
  let s := restartConns s (fun _ => true)
  { s with dram := { s.dram with selfRefresh := false }, mesh := { s.mesh with flushing := [] } }

/-- A device-wide reset has ended: it is counted, recorded and raised. -/
def resetEnded (s : State) (kind : Nat) : State :=
  let s := raise s (blankEvent clReset sevInfo meFirmware (if kind = 2 then acCompute else acFull)) 0
  { s with boot := { s.boot with
    st := .ready, resetting := none, silent := false, lastReset := resetRecord s s.boot.decidedAt s.boot.cause kind 0xFF
    computes := s.boot.computes + (if kind = 2 then 1 else 0), fulls := s.boot.fulls + (if kind = 2 then 0 else 1) } }

/-- Tripped fields ramp again at a full reset; one that trips in its soft start is recorded with cause 5 and raised (R384,
R401). A field that the defect map holds is held off (R453). -/
def reviveField (soft : List Nat) (s : State) (f : Nat) : State :=
  let D := getField s f
  match D.power with
  | .on => if D.defect.isSome then fieldDies s f .offDefect else s
  | .offShort | .offSupply | .offThermal =>
    if D.defect.isSome then s
    else if soft.contains f then
      raise (setField s f { D with defect := some 5 }) ((blankEvent clSupply sevFatal meMonitor acFieldDead).atField s f) f
    else setField s f { trim := D.trim, pllC := !s.clk.lost, pllF := true }
  | .offInput | .offDefect => s

/-- PLL-C stands at OP4: locked anew, the field cycle count is 0; where it was, the count goes on (R364). CCLK stays held while an
unlock clears secrets (Table 16.9). -/
def Field.atOp4 (D : Field) (hold : Bool) : Field :=
  if D.power ≠ .on then D
  else if D.op = 4 && D.pllC then { D with stopped := hold, retried := false }
  else { D with op := 4, pllC := true, stopped := hold, cyc := 0, half := false, retried := false }

/-- PLL-C stands at OP4 in every field, and no change is in progress (Table 16.5, step 4). -/
def allOp4 (s : State) : State :=
  { s with
    fields := mmap (fun _ (D : Field) => D.atOp4 s.sec.unlocking.isSome) s.fields
    parts := mmap (fun _ (P : Part) => { P with op := 4, change := none, pendPoint := none }) s.parts }

/-- The clocks at a full reset: a reference that is good is taken after the loss of both; F24 sends the pulses again (R361,
R376). -/
def clocksAfterFull (s : State) : State :=
  let act := match s.clk.active with
    | some r => some r
    | none => if s.clk.goodA then some .a else if s.clk.goodB then some .b else none
  let sync : Byte := if fieldAlive s 24 then 0 else if fieldAlive s 18 then 1 else 0xFF
  { s with clk := { s.clk with active := act, lost := act.isNone, holdover := act.isNone, sync := sync } }

end Sys2Proof.Machine
end

