-- ==== Sys2Proof/Machine/DictTable.lean ====
section
/-!
DEFINITION. The object dictionary's table (R332 to R336, Tables 5.4, 6.6, 7.10, 8.9, 9.16, 11.10, 12.12, 12.15, 13.8 to 13.10,
14.6, 15.7, 15.9, 16.10, 17.9, 18.10, 18.11): every entry's size, type class, access, actors and persistence; who may use a
per-partition entry (R309, R334, R484); the bits that a write must leave zero (R338 check 6).
-/
namespace Sys2Proof.Machine

/-! ### Entries -/

/-- The access of an entry (R334). -/
inductive Acc where
  | const
  | ro
  | rw
  | wo
deriving DecidableEq, Repr

/-- The type class of an entry (Table 13.1): BOOL; a number; STRING or DOMAIN. -/
inductive EType where
  | bool
  | num
  | blob
deriving DecidableEq, Repr

/-- What the table says of an entry. -/
structure Info where
  size : Nat
  ty : EType
  acc : Acc
  ha : Bool
  hb : Bool
  m : Bool
  f : Bool
  saved : Bool
deriving DecidableEq, Repr

/-- An index: elements at subindexes 1 to n with their count at 0, or one entry at subindex 0 (R332). -/
inductive Shape where
  | single (i : Info)
  | list (l : List Info)
  | array (n : Nat) (i : Info)
deriving DecidableEq, Repr

def mkInfo (size : Nat) (ty : EType) (acc : Acc) (h m f saved : Bool) : Info := ⟨size, ty, acc, h, h, m, f, saved⟩

/-- Read by every actor. -/
def roN (n : Nat) : Info := mkInfo n .num .ro true true true false
def roD (n : Nat) : Info := mkInfo n .blob .ro true true true false
def cN (n : Nat) : Info := mkInfo n .num .const true true true false
def cD (n : Nat) : Info := mkInfo n .blob .const true true true false
/-- Read by HA, HB and M. -/
def roH (n : Nat) : Info := mkInfo n .blob .ro true true false false
/-- Written by HA, HB and M only. -/
def woD (n : Nat) : Info := mkInfo n .blob .wo true true false false
def woN (n : Nat) : Info := mkInfo n .num .wo true true false false
/-- Written by M only. -/
def woM (n : Nat) (ty : EType) : Info := mkInfo n ty .wo false true false false
/-- Settings of HA, HB and M, and of M alone, the latter saved. -/
def rwN (n : Nat) : Info := mkInfo n .num .rw true true false false
def rwD (n : Nat) : Info := mkInfo n .blob .rw true true false false
def rwS (n : Nat) (ty : EType) : Info := mkInfo n ty .rw false true false true
def rwM (n : Nat) (ty : EType) : Info := mkInfo n ty .rw false true false false

/-- The indexes 0x1000 to 0x2FFF. -/
def shapeLow (ix : Nat) : Option Shape :=
  if ix = 0x1000 then some (.list [cD 16, cD 16, cD 16, cN 1, cN 8, cD 6, roN 4, roN 4, roN 1, roN 1, cN 2])
  else if ix = 0x1100 then
    some (.list [rwS 1 .num, rwS 1 .num, roN 8, roN 8, roN 1, roN 1, roN 8, roN 2, roN 1])
  else if ix = 0x1800 then some (.list [roN 4, roN 4, woM 1 .bool, roN 1])
  else if ix = 0x2000 then some (.list [roN 1, roN 8, roN 8])
  else if ix = 0x2001 then some (.array 49 (roD 16))
  else if ix = 0x2002 || ix = 0x2004 then some (.single (woD 8))
  else if ix = 0x2003 || ix = 0x2011 then some (.single (woN 1))
  else if ix = 0x2005 then some (.single (woM 8 .blob))
  else if ix = 0x2010 then some (.single (woN 2))
  else if ix = 0x2012 then some (.single (roD 256))
  else if ix = 0x2400 then some (.list (List.replicate 6 (roN 8)))
  else if ix = 0x2401 || ix = 0x2402 || ix = 0x2801 then some (.array 49 (rwN 1))
  else if ix = 0x2403 then some (.array 49 (roN 8))
  else if ix = 0x2404 || ix = 0x2405 || ix = 0x2805 then some (.array 49 (roH 16))
  else if ix = 0x2800 then some (.list (List.replicate 9 (roN 8)))
  else if ix = 0x2802 then some (.array 49 (rwN 4))
  else if ix = 0x2803 then some (.single (roD 1568))
  else if ix = 0x2804 then some (.single (roD 10752))
  else if ix = 0x2810 then some (.single (mkInfo 16 .blob .wo true true true false))
  else none

/-- The indexes 0x3000 to 0x5FFF. -/
def shapeMid (ix : Nat) : Option Shape :=
  if ix = 0x3000 then some (.list (List.replicate 6 (roN 8) ++ [roN 4, roN 4, roN 1, roN 8]))
  else if ix = 0x3001 || ix = 0x5001 then some (.single (rwS 4 .num))
  else if ix = 0x3002 then some (.array 49 (rwD 16))
  else if ix = 0x3003 then some (.array 49 (roD 16))
  else if ix = 0x3004 then some (.array 2 (roH 2048))
  else if ix = 0x3005 || ix = 0x3006 || ix = 0x3402 then some (.array 49 (roN 4))
  else if ix = 0x3400 then some (.list [roN 1, roN 8, roN 8, roN 8, rwS 1 .num, cN 1, cN 1])
  else if ix = 0x3401 then some (.array 49 (roD 16))
  else if ix = 0x4000 then some (.list [roN 1, rwS 1 .num, roN 1, roN 8, roN 1, roN 8, roN 8])
  else if ix = 0x4001 then some (.array 49 (roN 2))
  else if ix = 0x4002 then some (.array 49 (roD 8))
  else if ix = 0x4003 then some (.array 49 (roD 8160))
  else if ix = 0x4800 then some (.list [roN 8, roN 8, roN 8, roN 4, roN 8, roN 8, roN 8, roN 4])
  else if ix = 0x4801 then some (.single (rwS 1 .num))
  else if ix = 0x4802 then some (.single (roD 1344))
  else if ix = 0x4803 || ix = 0x4804 then some (.single (woD 8))
  else if ix = 0x4805 then some (.array 28 (roN 4))
  else if ix = 0x4806 then some (.array 28 (roH 32))
  else if ix = 0x5000 then some (.list (List.replicate 7 (roN 8) ++ List.replicate 4 (roN 4)))
  else if ix = 0x5002 then some (.array 49 (roD 64))
  else if ix = 0x5010 then some (.single (roD 1568))
  else if ix = 0x5011 then some (.single (roD 8192))
  else if ix = 0x5020 then some (.single (woD 4))
  else if ix = 0x5021 then some (.array 16 (roD 16))
  else if ix = 0x5030 then some (.single (roN 4))
  else if ix = 0x5800 then some (.list [roN 8, roN 8, roN 8, roN 4])
  else if ix = 0x5801 then some (.single (roD 262144))
  else if ix = 0x5802 then some (.single (roN 8))
  else if ix = 0x5803 then some (.single (woM 8 .num))
  else if ix = 0x5804 then some (.single (rwS 8 .num))
  else if ix = 0x5805 then some (.list [{ rwN 8 with hb := false }, { rwN 8 with ha := false }])
  else if ix = 0x5806 then some (.list [roN 1, roN 1])
  else if ix = 0x5820 then some (.list [cD 16, cD 16, roD 264])
  else none

/-- The indexes 0x6000 to 0x83FF. -/
def shapeHigh (ix : Nat) : Option Shape :=
  if ix = 0x6000 then some (.list [woN 1, woM 1 .bool, woM 1 .bool, roN 8, roN 8, roN 8, roD 24])
  else if ix = 0x6001 then some (.array 49 (roD 32))
  else if ix = 0x6002 then some (.array 49 (rwD 128))
  else if ix = 0x6003 then some (.single (rwS 4 .num))
  else if ix = 0x6010 then some (.single (roD 1632))
  else if ix = 0x6011 then some (.array 49 (roH 5373952))
  else if ix = 0x6020 then some (.array 49 (roD 1024))
  else if ix = 0x6800 then some (.array 2 (roD 64))
  else if ix = 0x6801 then some (.array 2 (roN 4))
  else if ix = 0x6802 then some (.array 2 (rwS 1 .num))
  else if ix = 0x6810 || ix = 0x6811 then some (.array 128 { rwD 16 with hb := false })
  else if ix = 0x6812 || ix = 0x6813 then some (.array 128 { rwD 16 with ha := false })
  else if ix = 0x6820 then some (.single (woD 32))
  else if ix = 0x6821 then some (.single (woN 2))
  else if ix = 0x6822 then some (.array 2 (roD 256))
  else if ix = 0x7000 then some (.list (List.replicate 10 (roN 8)))
  else if ix = 0x7001 then some (.list [rwS 2 .num, roN 2])
  else if ix = 0x7002 then some (.array 16 (roN 4))
  else if ix = 0x7003 then some (.array 16 (rwS 4 .num))
  else if ix = 0x7004 then some (.array 16 (rwS 16 .blob))
  else if ix = 0x7005 then some (.array 16 (roH 64))
  else if 0x7010 ≤ ix && ix ≤ 0x701F then some (.array 255 (rwD 64))
  else if ix = 0x7020 || ix = 0x7021 then some (.array 128 (rwD 16))
  else if ix = 0x7040 then some (.list [rwS 1 .num, rwN 4, roN 8, roN 1])
  else if ix = 0x7800 then some (.list [roN 8, roN 4, roN 8])
  else if ix = 0x7801 || ix = 0x7803 then some (.array 49 (rwN 8))
  else if ix = 0x7802 then some (.array 49 (roH 0))
  else if ix = 0x7880 then some (.list (List.replicate 5 (roN 8) ++ [roN 4]))
  else if ix = 0x7881 then some (.array 49 (rwN 1))
  else if ix = 0x7882 then some (.single (rwD 32))
  else if ix = 0x7883 then some (.single (mkInfo 1 .bool .wo true true false false))
  else if ix = 0x7890 || ix = 0x7891 then some (.array 128 (roH 128))
  else if ix = 0x8000 then some (.list [cD 64, roN 1, roN 1, roN 1, roN 1])
  else if ix = 0x8001 then some (.single (cD 1793))
  else if ix = 0x8002 then some (.single (cD 16384))
  else if ix = 0x8010 then some (.list [rwS 1 .num, roN 1, roD 8])
  else if ix = 0x8011 then some (.single (woM 1 .bool))
  else if ix = 0x8012 then some (.single (woM 0 .blob))
  else if ix = 0x8020 then some (.array 4 (rwM 72 .blob))
  else if ix = 0x8021 then some (.single (woM 3181 .blob))
  else if ix = 0x8022 then some (.single (mkInfo 32 .blob .ro false true false false))
  else if ix = 0x8023 then some (.single (rwM 1 .num))
  else if ix = 0x8030 then some (.single (roD 20496))
  else none

/-- The shape of an index; an index that no chapter defines is not an entry (R336). -/
def shapeOf (ix : Nat) : Option Shape :=
  if ix < 0x3000 then shapeLow ix else if ix < 0x6000 then shapeMid ix else shapeHigh ix

/-- Elements of an index, which a group or array shows at subindex 0. -/
def Shape.count : Shape → Nat
  | .single _ => 0
  | .list l => l.length
  | .array n _ => n

/-- The entry at a subindex. -/
def Shape.entry (h : Shape) (sub : Nat) : Option Info :=
  match h with
  | .single i => if sub = 0 then some i else none
  | .list l => if sub = 0 then some (cN 1) else l[sub - 1]?
  | .array n i => if sub = 0 then some (cN 1) else if sub ≤ n then some i else none

/-! ### Actors (R334, R309, R484) -/

/-- The mailbox function of a host request. -/
def hostFn : Endpoint → Option Fn
  | .mailbox f => some f
  | _ => none

/-- The actor mask names the endpoint's actor. -/
def Info.allows (i : Info) (ep : Endpoint) : Bool :=
  match ep with
  | .mailbox f => (match f.port with
    | .a => i.ha
    | .b => i.hb)
  | .mctp _ _ => i.m
  | .udp _ _ => i.m
  | .fw => i.f

/-- Indexes whose subindex names a partition, as the subindex less 1. -/
def perPart (ix : Nat) : Bool :=
  [0x2001, 0x2401, 0x2402, 0x2403, 0x2404, 0x2405, 0x2801, 0x2802, 0x2805, 0x3002, 0x3003, 0x3006, 0x4001, 0x6001, 0x6002,
   0x6020, 0x7801, 0x7802, 0x7803, 0x7881].contains ix

/-- A host function may use a partition's entries: one that holds it, and the PF of either port where the id is not
defined (R484). -/
def mayUsePart (s : State) (f : Fn) (p : Nat) : Bool :=
  let P := getPart s p
  if P.st = .free then decide (f.fn = 0) else P.heldBy f.port f.fn

/-- Connection id and aperture number of an entry (Table 11.10). -/
def connOf (ix sub : Nat) : Nat := 256 * (ix - 0x7010) + sub
def apOf (ix sub : Nat) : Nat := if ix = 0x7020 then sub - 1 else sub + 127
/-- Port and region of an entry (Table 12.15). -/
def regionPort (ix : Nat) : HPort := if ix < 0x6812 then .a else .b
def regionOf (ix sub : Nat) : Nat := if ix % 2 = 0 then sub - 1 else sub + 127

/-- The right of a host function to an entry under R309: for a per-partition entry, a connection or aperture with a
descriptor, a region, an interrupt mask and a field capture, as their owner; any function may use the others. -/
def hostMay (s : State) (f : Fn) (ix sub : Nat) : Bool :=
  if sub = 0 then true
  else if perPart ix then mayUsePart s f (sub - 1)
  else if ix = 0x5805 then decide (f.fn = 0)
  else if 0x6810 ≤ ix && ix ≤ 0x6813 then
    decide (f.fn = 0) || (match mfind (portOf s f.port).regions (regionOf ix sub) with
      | some r => decide (r.fn = f.fn)
      | none => false)
  else if 0x7010 ≤ ix && ix ≤ 0x701F then
    let C := getConn s (connOf ix sub)
    C.desc = [] || mayUsePart s f C.part
  else if ix = 0x7020 || ix = 0x7021 then
    match mfind s.xdt.aps (apOf ix sub) with
    | none => true
    | some a => mayUsePart s f a.part
  else if ix = 0x6011 then
    match mfind s.boot.captured (sub - 1) with
    | none => false
    | some o => decide (o.port = f.port) && (decide (f.fn = 0) || decide (o.fn = f.fn))
  else true

/-- Check 4 of R338: the actor. -/
def actorOk (s : State) (ep : Endpoint) (i : Info) (ix sub : Nat) : Bool :=
  i.allows ep && (match ep with
    | .mailbox f => hostMay s f ix sub
    | _ => true)

/-! ### Reserved bits (R338 check 6) -/

/-- Byte i of a value has no bit set outside a mask. -/
def within (l : List Byte) (i mask : Nat) : Bool := decide ((byteAt l i).toNat &&& mask = (byteAt l i).toNat)
def zeroRange (l : List Byte) (i n : Nat) : Bool := allZero ((l.drop i).take n)

/-- A value sets no reserved bit of the entry's layout. -/
def reservedZero (ix : Nat) (l : List Byte) : Bool :=
  if ix = 0x2002 || ix = 0x2004 || ix = 0x2005 then zeroRange l 7 1
  else if ix = 0x2810 then within l 2 0x0F && zeroRange l 12 4
  else if ix = 0x4803 then within l 5 1 && zeroRange l 6 2
  else if ix = 0x4804 then zeroRange l 6 2
  else if ix = 0x6002 then
    (List.range 8).all (fun i => within l (16 * i + 6) 1 && zeroRange l (16 * i + 7) 9)
  else if 0x6810 ≤ ix && ix ≤ 0x6813 then within l 9 0x0F && zeroRange l 10 6
  else if ix = 0x6820 then within l 6 1 && zeroRange l 24 8
  else if ix = 0x6821 then within l 1 1
  else if ix = 0x7003 then within l 0 3 && zeroRange l 1 3
  else if 0x7010 ≤ ix && ix ≤ 0x701F then
    within l 0 7 && within l 36 0x3F && zeroRange l 37 3 && zeroRange l 41 3
  else if ix = 0x7020 || ix = 0x7021 then within l 3 1 && within l 10 0x0F && zeroRange l 11 1 && zeroRange l 12 4
  else if ix = 0x7801 then within l 5 0x1F && zeroRange l 6 2
  else if ix = 0x8020 then within l 0 7 && zeroRange l 1 7
  else if ix = 0x8023 then within l 0 3
  else true

/-- Check 3 of R338: indexes that are answered before READY. -/
def answeredEarly (ix : Nat) : Bool :=
  (decide (0x1000 ≤ ix) && decide (ix ≤ 0x11FF)) || (decide (0x1800 ≤ ix) && decide (ix ≤ 0x18FF))
    || (decide (0x6800 ≤ ix) && decide (ix ≤ 0x6802))

/-- What a request does with its entry. -/
inductive Use where
  | read
  | write (value : List Byte)
deriving DecidableEq, Repr

/-- Checks 1 to 6 of R338, `block` where the operation is a block operation: the entry's table row, or the status of the
first check that fails. The sizes of 0x8012 and of a STRING are judged by the entry's own rules. -/
def judge (s : State) (ep : Endpoint) (ix sub : Nat) (block : Bool) (u : Use) : Except Byte Info :=
  match shapeOf ix with
  | none => .error stNoObject
  | some h => match h.entry sub with
    | none => .error stNoSubindex
    | some i =>
      if s.boot.st ≠ .ready && !(answeredEarly ix) then .error stNotReady
      else match u with
        | .read =>
          if i.acc = .wo || !(actorOk s ep i ix sub) then .error stAccess
          else if block && i.ty ≠ .blob then .error stType
          else .ok i
        | .write l =>
          if i.acc = .const || i.acc = .ro || !(actorOk s ep i ix sub) then .error stAccess
          else if (ix ≠ 0x8012 && l.length ≠ i.size) || (block && i.ty ≠ .blob) then .error stType
          else if !(reservedZero ix l) || (i.ty = .bool && 1 < leNat l) then .error stRange
          else .ok i

end Sys2Proof.Machine
end

