-- ==== Sys2Proof/Machine/DictRead.lean ====
section
/-!
DEFINITION. What every readable entry of the object dictionary holds at the instant of a read (R332 to R335, R343, and the
entry tables of each chapter).
-/
namespace Sys2Proof.Machine

/-! ### Sums and maps -/

def strBytes (t : String) : List Byte := t.toList.map (fun c => BitVec.ofNat 8 c.toNat)

/-- A number with bit i set where f i holds, i below n. -/
def maskOf (n : Nat) (f : Nat → Bool) : Nat := (List.range n).foldl (fun v i => v + 2 ^ i * b2n (f i)) 0

/-- The smallest of a list, d where it is empty. -/
def least (d : Nat) : List Nat → Nat
  | [] => d
  | a :: r => r.foldl Nat.min a

def DevState.code : DevState → Nat
  | .booting => 0
  | .ready => 1
  | .computeReset => 2
  | .fullPending => 3
  | .failed => 4

def PartState.code : PartState → Nat
  | .free => 0
  | .idle => 1
  | .bound => 2
  | .running => 3
  | .outOfService => 4

def portCode : HPort → Nat
  | .a => 0
  | .b => 1

def bootStep (s : State) : Nat := if s.boot.st = .ready then 0xFF else s.boot.step.toNat

/-- Field F is in no partition, alive and without a broken row (0x2000:02). -/
def fieldFree (s : State) (f : Nat) : Bool :=
  (partOfField s f).isNone && fieldAlive s f && (List.range 16).all (fun r => decide ((getRow s f r).kind ≠ .broken))

/-- Table 12.13. -/
def Part.record (P : Part) : List Byte :=
  if P.st = .free then [0, 0xFF] ++ zeros 14
  else one P.st.code ++ one (portCode P.port) ++ one P.fn ++ one P.fx ++ one P.fy ++ one P.w ++ one P.h ++ one (P.ctx.getD 0)
    ++ one (b2n P.ctx.isSome) ++ zeros 7

/-! ### Streams and mesh -/

/-- 0x2405: for each slot, the load tag that every tile shares, and how many hold the slot valid. -/
def slotState (s : State) (P : Part) : List Byte :=
  let ts := (partTiles s P).map (getTile s)
  if P.st = .free then zeros 16
  else (List.range 4).flatMap (fun n =>
    let vs := ts.map (fun T => T.getSlot (BitVec.ofNat 2 n))
    let tag := match vs with
      | [] => 0xFFFF
      | v :: r => if r.all (fun w => decide (w.tag = v.tag)) then v.tag.toNat else 0xFFFF
    natBytes 2 tag ++ natBytes 2 (vs.filter (fun v => v.valid)).length)

/-- The logical record of a dead link: X, Y, KIND (Table 9.17); none where its north-south column is the excluded one. -/
def deadRecord (s : State) (c net : Nat) : Option (List Byte) :=
  if c < 672 then
    let q := c / 16
    some [BitVec.ofNat 8 (16 * (q % 6) + 15), BitVec.ofNat 8 (16 * (q / 6) + c % 16), BitVec.ofNat 8 (net - 1), 0]
  else
    let q := (c - 672) / 17
    (tileAt s ⟨q, 15, (c - 672) % 17⟩).map (fun t =>
      [BitVec.ofNat 8 t.x, BitVec.ofNat 8 t.y, BitVec.ofNat 8 (net - 1 + 2), 0])

/-- The dead links, as crossing and network, once each. -/
def deadLinks (s : State) : List (Nat × Nat) :=
  s.bundles.foldl (fun m e =>
    let k := (e.1 / 92, bundleNet e.1)
    if e.2.dead && !(m.contains k) then m ++ [k] else m) []

/-- 0x2804. -/
def deadList (s : State) : List Byte :=
  let l := ((deadLinks s).filter (fun k => decide (k.2 ≠ 0))).filterMap (fun k => deadRecord s k.1 k.2)
  l.flatten ++ List.replicate (10752 - 4 * l.length) 0xFF

/-! ### Power, thermal, clocks -/

def FieldPower.code : FieldPower → Nat
  | .on => 0
  | .offShort => 1
  | .offSupply => 2
  | .offThermal => 3
  | .offInput => 4
  | .offDefect => 5

/-- 0x3006. -/
def Part.governor (P : Part) : Nat :=
  P.phase.toNat + P.powerK <<< 8 + P.reqPoint <<< 16 + b2n P.worst <<< 24 + b2n P.lowered <<< 25

/-- Sites of block n of a field. -/
def blockSites (f n : Nat) : List SiteId :=
  ((List.range 4).flatMap (fun r => (List.range 17).map (fun pc => (⟨f, 4 * (n / 4) + r, pc⟩ : SiteId)))).filter
    (fun a => decide (a.block = 16 * f + n))
def blockTemp (s : State) (f n : Nat) : Nat := ((blockSites f n).map (fun a => (getSite s a).temp)).foldl Nat.max 0

/-- 0x3402. -/
def thermalState (s : State) (f : Nat) : Nat :=
  maskOf 16 (fun n => (getBlock s (16 * f + n)).stopped) + (getField s f).thermal <<< 16 + (getField s f).hottest <<< 24

/-- Table 14.7. -/
def clockState (s : State) (f : Nat) : List Byte :=
  let D := getField s f
  (List.range 5).map (fun i => mget 0 D.trim i) ++ one D.op
    ++ one (b2n D.pllC + 2 * b2n D.pllF + 4 * b2n (changing s f) + 8 * b2n (decide (s.clk.sync = 0xFF))) ++ [0]

/-- 0x4003. -/
def fmaxBytes (s : State) (f : Nat) : List Byte :=
  (List.range 272).flatMap (fun i => (List.range 15).flatMap (fun k => natBytes 2 (fmaxWord s (⟨f, i / 17, i % 17⟩) k).toNat))

/-! ### Memory -/

def allSites : List SiteId := (List.range 13328).map SiteId.ofKey

/-- Complete scrub passes of a site (R215). -/
def Site.passes (t : Site) : Nat := least 0 ((List.range 24).map (fun b => mget 0 t.scrub b / 2048))

/-- 0x4802. -/
def granuleMap (s : State) : List Byte :=
  (List.range 1344).map (fun g =>
    if g = 1343 then 0xFE
    else match mfind s.dram.granules g with
      | none => 0xFF
      | some o => BitVec.ofNat 8 (o.owner + 128 * b2n o.shared))

/-- Table 8.11. -/
def complexStatus (s : State) (dc : Nat) : Nat :=
  let C := getComplex s dc
  maskOf 8 (fun n => (getChannel s (8 * dc + n)).faulted) + b2n C.lost <<< 8 + b2n (dcRests s dc) <<< 9
    + b2n (dcUnreachable s dc) <<< 10 + C.temp.toNat <<< 16 + C.refreshX.toNat <<< 24

/-! ### Self-test and repair -/

/-- Table 17.7. -/
def cloakWord (s : State) (f r : Nat) : Nat :=
  let w := getRow s f r
  if !(fieldAlive s f) then 4 <<< 8 + 0x1F
  else
    let k := match w.kind with
      | .spare => 0
      | .cloaked => 1
      | .binCloaked => 2
      | .broken => 3
    b2n w.visit <<< 15 + b2n ((rowSites f r).any (fun a => (getSite s a).unproven)) <<< 14 + k <<< 8
      + (if w.kind = .broken then 0x1F else w.e)

/-- Table 17.8: sites, and whole fields after their sites, sorted by field, row and PC. -/
def defectMap (s : State) : List Byte :=
  let l := (List.range 49).flatMap (fun f =>
    ((s.sites.filter (fun e => decide (e.1 / 272 = f))).filterMap (fun e => e.2.failed.map (fun c =>
      [BitVec.ofNat 8 f, BitVec.ofNat 8 (SiteId.ofKey e.1).row, BitVec.ofNat 8 (SiteId.ofKey e.1).pc, c])))
    ++ (match (getField s f).defect with
      | none => []
      | some c => [[BitVec.ofNat 8 f, 0xFF, 0xFF, c]]))
  (l.take 2048).flatten ++ List.replicate (8192 - 4 * (l.take 2048).length) 0xFF

/-- Unproven sites in the grid (0x5000:09, R423). -/
def unprovenCount (s : State) : Nat :=
  (s.sites.filter (fun e => e.2.unproven && (tileAt s (SiteId.ofKey e.1)).isSome)).length

/-- Lanes substituted (0x5000:0A). -/
def hemCount (s : State) : Nat := sumOf (fun e => e.2.substituted.length) s.bundles

/-! ### Events, resets -/

def logBytes (s : State) : List Byte :=
  (List.range 4096).flatMap (fun i => match mfind s.events.log i with
    | none => zeros 64
    | some e => e.bytes)

def guid (f : Nat → Byte) : List Byte := (List.range 16).map f

/-- The CPER record (R449): header and section descriptor as the UEFI specification lays them out (log entry 18). -/
def cperBytes (s : State) : List Byte :=
  match s.events.cper with
  | none => zeros 264
  | some e =>
    let sev := natBytes 4 e.severity
    strBytes "CPER" ++ natBytes 2 0x0101 ++ natBytes 4 0xFFFFFFFF ++ natBytes 2 1 ++ sev ++ zeros 4 ++ natBytes 4 264
      ++ zeros 8 ++ zeros 16 ++ zeros 16 ++ guid Config.creatorGuid ++ guid Config.creatorGuid ++ natBytes 8 e.seq
      ++ zeros 4 ++ zeros 8 ++ zeros 12
      ++ natBytes 4 200 ++ natBytes 4 64 ++ natBytes 2 0x0300 ++ zeros 2 ++ zeros 4 ++ guid Config.sectionGuid ++ zeros 16
      ++ sev ++ zeros 20
      ++ e.bytes

/-- A write waits for the partition's commit (0x6001). -/
def writesHeld (s : State) (P : Part) : Bool :=
  s.dram.held.any (fun i => match mfind s.mesh.pkts i with
    | none => false
    | some k => decide (k.type = .write) && heldBy P (k.addr - dramBase) k.span)

/-- 0x6001. A commit takes no time in the model, so none is in progress. -/
def Part.stepState (s : State) (P : Part) : List Byte :=
  natBytes 8 (P.c.getD (2 ^ 64 - 1)) ++ natBytes 8 P.n ++ one (2 * b2n P.taint + 4 * b2n (writesHeld s P)) ++ zeros 3
    ++ natBytes 4 P.rollbacks.toNat ++ natBytes 4 P.withdrawals.toNat ++ zeros 4

def Region.bytes (r : Region) : List Byte :=
  natBytes 2 r.copy0 ++ natBytes 2 r.copy1 ++ natBytes 2 r.count ++ one (b2n r.valid) ++ zeros 9

/-- 0x6002. -/
def Part.regionBytes (P : Part) : List Byte :=
  (List.range 8).flatMap (fun i => match mfind P.regions i with
    | none => zeros 16
    | some r => r.bytes)

def StepRec.bytes (r : StepRec) : List Byte :=
  natBytes 8 r.release.toNat ++ natBytes 4 r.duration.toNat ++ natBytes 2 r.spread.toNat ++ [r.lastX, r.lastY]

/-- 0x6011 (Table 18.6). -/
def fieldCapture (s : State) (f : Nat) : List Byte :=
  (fieldTiles f).flatMap (fun t => dramBytes s (crashBase + 0x100000 + 16384 * t.key) 16384)
    ++ (fieldTiles f).flatMap (fun t => dramBytes s (crashBase + 0xC500000 + 4608 * t.key) 4608)

/-! ### Host ports -/

/-- Table 12.16. -/
def portStatus (s : State) (p : HPort) : Nat :=
  let P := portOf s p
  b2n P.linkUp + 2 * b2n (degraded s p) + P.gen <<< 3 + P.width <<< 6 + P.vfs <<< 11

def HostRegion.bytes (r : HostRegion) : List Byte :=
  natBytes 8 r.base.toNat ++ one r.fn
    ++ one (b2n r.valid + 2 * b2n r.readOnly + 4 * b2n r.relaxed + 8 * b2n r.noSnoop) ++ zeros 6

def portIx (sub : Nat) : HPort := if sub = 1 then .a else .b

def pairMap (P : Port_) : List Byte :=
  (List.range 256).map (fun n => match mfind P.qps n with
    | none => 0xFF
    | some q => BitVec.ofNat 8 q.fn)

/-- 0x3004: a pair's counter keeps its value when the pair is deleted; only its creation clears it (R335). -/
def pairEnergy (P : Port_) : List Byte := (List.range 256).flatMap (fun n => natBytes 8 (mget 0 P.energies n).toNat)

/-! ### Scale-out -/

def ConnState.code : ConnState → Nat
  | .disabled => 0
  | .opened => 1
  | .restarting => 2
  | .failed => 3

/-- Table 11.5. -/
def Conn.bytes (c : Conn) : List Byte :=
  padTo 40 c.desc ++ one c.st.code ++ zeros 3 ++ natBytes 4 c.rate ++ natBytes 4 c.nextPsn.toNat ++ natBytes 4 c.expPsn.toNat
    ++ natBytes 4 c.unacked.length ++ natBytes 4 c.retx.toNat

/-- Table 11.7. -/
def Ap.bytes (a : Ap) : List Byte := natBytes 2 a.conn ++ one a.part ++ one (b2n a.valid) ++ natBytes 8 a.base ++ zeros 4

/-- Table 11.11. -/
def ethStatus (s : State) (e : Nat) : Nat :=
  let v := mget {} s.xdt.eths e
  let time := decide (liveNat s 0x7040 1 0xFF = e) && decide (s.xdt.timeState = 2)
  b2n v.up + 2 * b2n v.anDone + 4 * b2n v.fec + 8 * b2n time + v.lanes.toNat <<< 8

/-- Two's complement of n bytes. -/
def intBytes (n : Nat) (v : Int) : List Byte := natBytes n (v % (2 ^ (8 * n) : Nat)).toNat

/-! ### Numerics -/

/-- X, Y, OFFSET, records and VALID of a scale-table descriptor (Table 6.7). -/
def scTile (d : Word64) : XY := ⟨bits d.toNat 6 0, bits d.toNat 13 7⟩
def scOff (d : Word64) : Nat := bits d.toNat 35 14
def scCount (d : Word64) : Nat := bits d.toNat 43 36 + 1
def scValid (d : Word64) : Bool := d.getLsbD 44

/-- NONFINITE over every record of a registered table (Table 6.4). -/
def nonfiniteSum (s : State) : Nat :=
  sumOf (fun (e : Nat × Part) =>
    let d := e.2.cfg.scale
    if scValid d then
      (List.range (scCount d)).foldl (fun n i =>
        n + leNat ((getTile s (scTile d)).mem.bytes (scOff d + 128 * i + 78) 2)) 0
    else 0) s.parts

def histBytes (s : State) (tag : Nat) : List Byte :=
  (List.range 16).flatMap (fun b => natBytes 8 (mget 0 s.hist (16 * tag + b)))

/-! ### Security -/

/-- What a NOR device holds as its image: as delivered until 0x8012 writes it; one that this boot has found not to verify is
invalid. -/
def heldImage (s : State) (b : Bool) : Option (Nat × Nat × Nat) :=
  if s.boot.badImages.getLsbD (b2n b) then none
  else match (if b then s.sec.headerB else s.sec.headerA) with
    | none => some ((Config.imageVersion b).toNat, (Config.imageSvn b).toNat, (Config.imageOchre b).toNat)
    | some _ => if b then s.sec.imageB else s.sec.imageA

/-- The fused minimum SVN: as fused at manufacture, or as raised since (R407). -/
def minSvnOf (s : State) : Nat := Nat.max Config.fusedSvn.toNat s.sec.minSvn

def ownerSlot (s : State) (n : Nat) : Byte × BitVec 512 := mget (0, 0) s.sec.slots n
def slotBytes (v : Byte × BitVec 512) : List Byte := [v.1] ++ zeros 7 ++ natBytes 64 v.2.toNat

/-- 0x8022: the nonce in force, zero where it has been cleared (Table 16.9). -/
def nonceBytes (s : State) : List Byte :=
  if s.sec.nonceHeld then (List.range 32).map (Config.nonce s.sec.nonce) else zeros 32

def versionOf (i : Option (Nat × Nat × Nat)) : Nat :=
  match i with
  | none => 0xFFFFFFFF
  | some v => v.1

/-- Table 16.6. -/
def measurementLog (s : State) : List Byte :=
  natBytes 8 s.sec.overwritten ++ natBytes 8 s.sec.written
    ++ padTo 20480 (s.sec.log.flatMap (fun r => natBytes 8 r.1 ++ one r.2.1 ++ zeros 7 ++ natBytes 64 r.2.2.toNat))

/-! ### The value of an entry -/

/-- Of 0x1000 to 0x2FFF. -/
def valueLow (s : State) (ix sub : Nat) : List Byte :=
  let P := getPart s (sub - 1)
  let tot (n : Nat) : List Byte := natBytes n (total s ix sub)
  let live (n d : Nat) : List Byte := natBytes n (liveNat s ix sub d)
  if ix = 0x1000 then
    if sub = 1 then strBytes "Vangoa"
    else if sub = 2 then strBytes "XW49"
    else if sub = 3 then strBytes "XW49-A30-LC"
    else if sub = 4 then [1]
    else if sub = 5 then natBytes 8 Config.serial.toNat
    else if sub = 6 then beBytes 6 Config.baseMac
    else if sub = 7 then natBytes 4 s.sec.version.toNat
    else if sub = 8 then natBytes 4 (hoursNow s).toNat
    else if sub = 9 then one s.boot.st.code
    else if sub = 10 then one (bootStep s)
    else natBytes 2 0x0100
  else if ix = 0x1100 then
    if sub = 1 then live 1 0xFF
    else if sub = 2 then live 1 8
    else if sub = 5 then [s.portA.eid]
    else if sub = 6 then [s.portB.eid]
    else if sub = 8 then natBytes 2 s.aceel.subs.length
    else if sub = 9 then one (match s.aceel.beacon with
      | none => 0
      | some g => b2n (decide (s.clk.gtc ≤ g + 100000000)))
    else tot 8
  else if ix = 0x1800 then
    if sub = 1 then natBytes 4 (Nat.max (if s.saved.valid0 then s.saved.gen0 else 0) (if s.saved.valid1 then s.saved.gen1 else 0))
    else if sub = 2 then natBytes 4 (Nat.min (total s ix sub) 0xFFFFFFFF)
    else one (b2n s.saved.valid0 + 2 * b2n s.saved.valid1)
  else if ix = 0x2000 then
    if sub = 1 then one (s.parts.filter (fun e => decide (e.2.st ≠ .free))).length
    else if sub = 2 then natBytes 8 (maskOf 49 (fieldFree s))
    else natBytes 8 (maskOf 49 (fun p => decide ((getPart s p).st = .outOfService)))
  else if ix = 0x2001 then P.record
  else if ix = 0x2012 then
    (List.range 256).map (fun c => match mfind s.ctxs c with
      | none => 0xFF
      | some p => BitVec.ofNat 8 p)
  else if ix = 0x2400 then
    if sub = 1 then natBytes 8 (sumOf (fun (e : Nat × Tile) => e.2.balStall.toNat) s.tiles) else tot 8
  else if ix = 0x2401 then [P.cfg.reconf]
  else if ix = 0x2402 then [P.cfg.slotMode]
  else if ix = 0x2403 then natBytes 8 P.deviations.toNat
  else if ix = 0x2404 then padTo 16 P.lastDev
  else if ix = 0x2405 then slotState s P
  else if ix = 0x2800 then tot 8
  else if ix = 0x2801 then [P.cfg.box]
  else if ix = 0x2802 then natBytes 4 P.cfg.stall.toNat
  else if ix = 0x2803 then holeMap s
  else if ix = 0x2804 then deadList s
  else padTo 16 P.lastStall

/-- Of 0x3000 to 0x4FFF. -/
def valueMid (s : State) (ix sub : Nat) : List Byte :=
  let k := sub - 1
  let P := getPart s k
  let D := getField s k
  let tot (n : Nat) : List Byte := natBytes n (total s ix sub)
  let live (n d : Nat) : List Byte := natBytes n (liveNat s ix sub d)
  if ix = 0x3000 then
    if sub = 7 then natBytes 4 s.power.volts.toNat
    else if sub = 8 then natBytes 4 s.power.watts.toNat
    else if sub = 9 then one s.power.converters
    else tot 8
  else if ix = 0x3001 then live 4 22000
  else if ix = 0x3002 then (List.range 8).flatMap (fun i => natBytes 2 (mget 0x1000 P.cfg.phases i).toNat)
  else if ix = 0x3003 then natBytes 8 P.energy.toNat ++ natBytes 8 P.idle.toNat
  else if ix = 0x3004 then pairEnergy (portOf s (portIx sub))
  else if ix = 0x3005 then natBytes 4 (D.watts.toNat <<< 16 + D.power.code)
  else if ix = 0x3006 then natBytes 4 P.governor
  else if ix = 0x3400 then
    if sub = 1 then one s.power.hottest
    else if sub = 5 then live 1 95
    else if sub = 6 then one 105
    else if sub = 7 then one 115
    else tot 8
  else if ix = 0x3401 then (List.range 16).flatMap (fun n => one (blockTemp s k n))
  else if ix = 0x3402 then natBytes 4 (thermalState s k)
  else if ix = 0x4000 then
    if sub = 1 then (match s.clk.active with
      | some .a => one 0
      | some .b => one 1
      | none => one 0xFF)
    else if sub = 2 then live 1 0
    else if sub = 3 then one (b2n s.clk.goodA + 2 * b2n s.clk.goodB)
    else if sub = 5 then [s.clk.sync]
    else if sub = 7 then natBytes 8 (gtcOf s (s.boot.master.getD 24))
    else tot 8
  else if ix = 0x4001 then one P.op ++ one P.ceiling
  else if ix = 0x4002 then clockState s k
  else if ix = 0x4003 then fmaxBytes s k
  else if ix = 0x4800 then
    if sub = 1 then natBytes 8 (sumOf (fun (e : Nat × Site) => e.2.ce.toNat) s.sites)
    else if sub = 4 then natBytes 4 (least 0 ((allSites.filter (fun a => fieldAlive s a.field)).map (fun a => (getSite s a).passes)))
    else if sub = 8 then natBytes 4 (least 0 ((List.range 224).map (fun c => (getChannel s c).passes)))
    else tot 8
  else if ix = 0x4801 then live 1 0
  else if ix = 0x4802 then granuleMap s
  else if ix = 0x4805 then natBytes 4 (complexStatus s k)
  else
    let C := getComplex s k
    natBytes 8 C.corrected.toNat ++ natBytes 8 C.uncorrectable.toNat ++ natBytes 8 C.bytesRead.toNat
      ++ natBytes 8 C.bytesWritten.toNat

/-- Of 0x5000 to 0x6FFF. -/
def valueHigh (s : State) (ix sub : Nat) : List Byte :=
  let k := sub - 1
  let P := getPart s k
  let tot (n : Nat) : List Byte := natBytes n (total s ix sub)
  let live (n d : Nat) : List Byte := natBytes n (liveNat s ix sub d)
  if ix = 0x5000 then
    if sub = 8 then natBytes 4 (s.rows.filter (fun e => decide (e.2.kind = .broken) && fieldAlive s (e.1 / 16))).length
    else if sub = 9 then natBytes 4 (unprovenCount s)
    else if sub = 10 then natBytes 4 (hemCount s)
    else if sub = 11 then natBytes 4 (deadLinks s).length
    else tot 8
  else if ix = 0x5001 then live 4 1000
  else if ix = 0x5002 then (List.range 16).flatMap (fun r => natBytes 4 (getRow s k r).steps.toNat)
  else if ix = 0x5010 then allRows.flatMap (fun x => natBytes 2 (cloakWord s x.1 x.2))
  else if ix = 0x5011 then defectMap s
  else if ix = 0x5021 then padTo 16 (s.tests.results.getD k [])
  else if ix = 0x5030 then natBytes 4 s.sec.ochre.toNat
  else if ix = 0x5800 then
    if sub = 1 then natBytes 8 s.events.seq
    else if sub = 2 then natBytes 8 s.events.overwritten
    else if sub = 3 then natBytes 8 s.events.suppressed
    else natBytes 4 s.boot.heartbeat.toNat
  else if ix = 0x5801 then logBytes s
  else if ix = 0x5802 then natBytes 8 s.events.latched.toNat
  else if ix = 0x5804 then live 8 0x7FFFFFE
  else if ix = 0x5805 then natBytes 8 (if sub = 1 then s.events.maskA else s.events.maskB).toNat
  else if ix = 0x5806 then one ((if sub = 1 then s.boot.master else s.boot.standby).getD 0xFF)
  else if ix = 0x5820 then
    if sub = 1 then guid Config.creatorGuid else if sub = 2 then guid Config.sectionGuid else cperBytes s
  else if ix = 0x6000 then
    if sub = 4 then natBytes 8 s.boot.contexts
    else if sub = 5 then natBytes 8 s.boot.computes
    else if sub = 6 then natBytes 8 s.boot.fulls
    else padTo 24 s.boot.lastReset
  else if ix = 0x6001 then Part.stepState s P
  else if ix = 0x6002 then P.regionBytes
  else if ix = 0x6003 then live 4 100
  else if ix = 0x6010 then dramBytes s crashBase 1632
  else if ix = 0x6011 then fieldCapture s k
  else if ix = 0x6020 then padTo 1024 (P.history.flatMap StepRec.bytes)
  else if ix = 0x6800 then (List.range 8).flatMap (fun i => natBytes 8 (mget 0 (portOf s (portIx sub)).counters i))
  else if ix = 0x6801 then natBytes 4 (portStatus s (portIx sub))
  else if ix = 0x6802 then live 1 6
  else if 0x6810 ≤ ix && ix ≤ 0x6813 then
    match mfind (portOf s (regionPort ix)).regions (regionOf ix sub) with
    | none => zeros 16
    | some r => r.bytes
  else pairMap (portOf s (portIx sub))

/-- Of 0x7000 to 0x8FFF. -/
def valueTop (s : State) (ix sub : Nat) : List Byte :=
  let k := sub - 1
  let P := getPart s k
  let tot (n : Nat) : List Byte := natBytes n (total s ix sub)
  let live (n d : Nat) : List Byte := natBytes n (liveNat s ix sub d)
  if ix = 0x7000 then tot 8
  else if ix = 0x7001 then
    if sub = 1 then live 2 0xFFFF else natBytes 2 (maskOf 16 (fun e => (mget {} s.xdt.eths e).up))
  else if ix = 0x7002 then natBytes 4 (ethStatus s k)
  else if ix = 0x7003 then live 4 2
  else if ix = 0x7004 then live 16 0
  else if ix = 0x7005 then (List.range 8).flatMap (fun i => natBytes 8 (mget 0 (mget {} s.xdt.eths k).counters i))
  else if 0x7010 ≤ ix && ix ≤ 0x701F then (getConn s (connOf ix sub)).bytes
  else if ix = 0x7020 || ix = 0x7021 then
    match mfind s.xdt.aps (apOf ix sub) with
    | none => zeros 16
    | some a => a.bytes
  else if ix = 0x7040 then
    if sub = 1 then live 1 0xFF
    else if sub = 2 then intBytes 4 s.xdt.rateAdj
    else if sub = 3 then intBytes 8 s.xdt.offset
    else [s.xdt.timeState]
  else if ix = 0x7800 then
    if sub = 1 then natBytes 8 (sumOf (fun (e : Nat × Tile) => e.2.ovf.toNat) (captured s))
    else if sub = 2 then natBytes 4 ((captured s).filter (fun e => decide (e.2.ovf ≠ 0))).length
    else natBytes 8 (nonfiniteSum s)
  else if ix = 0x7801 then natBytes 8 P.cfg.scale.toNat
  else if ix = 0x7803 then natBytes 8 P.cfg.seed.toNat
  else if ix = 0x7880 then if sub = 6 then natBytes 4 (Nat.min (total s ix sub) 0xFFFFFFFF) else tot 8
  else if ix = 0x7881 then [P.cfg.policyNext]
  else if ix = 0x7882 then natBytes 32 s.wideTags.toNat
  else if ix = 0x7890 then histBytes s k
  else if ix = 0x7891 then histBytes s (sub + 127)
  else if ix = 0x8000 then
    if sub = 1 then natBytes 64 Config.rootKeyDigest.toNat
    else if sub = 2 then one (minSvnOf s)
    else if sub = 3 then one s.sec.runSvn
    else if sub = 4 then one (maskOf 4 (fun n => (ownerSlot s (n + 1)).1.getLsbD 0))
    else [s.sec.dbg]
  else if ix = 0x8001 then (List.range 1793).map Config.identityKey
  else if ix = 0x8002 then (List.range 16384).map Config.certChain
  else if ix = 0x8010 then
    if sub = 1 then live 1 0
    else if sub = 2 then [s.sec.booted]
    else natBytes 4 (versionOf (heldImage s false)) ++ natBytes 4 (versionOf (heldImage s true))
  else if ix = 0x8020 then slotBytes (ownerSlot s sub)
  else if ix = 0x8022 then nonceBytes s
  else if ix = 0x8023 then [s.sec.policy]
  else measurementLog s

/-- The value of a readable entry, but for 0x7802, which R172 reads. -/
def entryValue (s : State) (ix sub : Nat) : List Byte :=
  match shapeOf ix with
  | none => []
  | some h =>
    if sub = 0 && 0 < h.count then one h.count
    else if ix < 0x3000 then valueLow s ix sub
    else if ix < 0x5000 then valueMid s ix sub
    else if ix < 0x7000 then valueHigh s ix sub
    else valueTop s ix sub

/-! ### 0x7802 (R172) -/

/-- A read of the snapshot: NOT_READY without a valid descriptor, BUSY where a record gave no stable copy in four attempts
(`unstable`), otherwise every record. Where a record's word is uncorrectable, or its tile lies in a hole, the spec names no outcome
for this reader: the stored bytes are returned, zeros of a lost tile, and nothing is raised (DESIGN CHOICE, log entry 160). -/
def scaleSnapshot (s : State) (p : Nat) (unstable : List Nat) : Except Byte (List Byte) :=
  let d := (getPart s p).cfg.scale
  if !(scValid d) then .error stNotReady
  else if (List.range (scCount d)).any (fun i => unstable.contains i) then .error stBusy
  else .ok ((getTile s (scTile d)).mem.bytes (scOff d) (128 * scCount d))

/-- The bytes that a read returns, or its status. A debug unlock has made the crash area unreadable (R462). -/
def readEntry (s : State) (ix sub : Nat) (unstable : List Nat) : Except Byte (List Byte) :=
  if ix = 0x7802 && 0 < sub then
    if (getPart s (sub - 1)).st = .free then .error stNotReady else scaleSnapshot s (sub - 1) unstable
  else if (ix = 0x6010 || (ix = 0x6011 && 0 < sub)) && decide (s.sec.dbg ≠ 0) then .error stNotReady
  else .ok (entryValue s ix sub)

end Sys2Proof.Machine
end

