-- ==== Sys2Proof/Machine/Partitions.lean ====
section
/-!
DEFINITION. Dictionary writes that make and change partitions, contexts, queue pairs, regions and granules (R229, R238, R311,
R314 to R319). Each operation is given a value that has passed checks 1 to 6 of R338 and answers the state and a status; a
status other than OK leaves the state as it was.
-/
namespace Sys2Proof.Machine

/-! ### Who writes -/

/-- The writer holds the partition (R309); M and F need hold nothing. -/
def writerHolds (s : State) (ep : Endpoint) (p : Nat) : Bool :=
  match hostFn ep with
  | none => true
  | some f => mayUsePart s f p

/-- A virtual function writes. -/
def fromVf (ep : Endpoint) : Bool :=
  match hostFn ep with
  | none => false
  | some f => decide (f.fn ≠ 0)

/-- The port of a request that only M names: a host names its own (Tables 12.14 and 12.17). -/
def namedPort (ep : Endpoint) (b : Nat) : Option HPort :=
  match hostFn ep with
  | some f => some f.port
  | none => if b = 0 then some .a else if b = 1 then some .b else none

def isDefined (s : State) (p : Nat) : Bool := decide ((getPart s p).st ≠ .free)

/-- Some tile of the partition has TC_CTRL.RUN = 1. -/
def anyRun (s : State) (p : Nat) : Bool := (partTiles s (getPart s p)).any (fun t => (getTile s t).run)

/-- Operand bytes of a value. -/
def num (l : List Byte) (i n : Nat) : Nat := fieldOf l i n

/-! ### Geometry -/

/-- The fields of a rectangle; none where it leaves the 7 × 7 square or a side is not from 1 to 7 (R313). -/
def rectFields (fx fy w h : Nat) : Option (List Nat) :=
  if 1 ≤ w && 1 ≤ h && fx + w ≤ 7 && fy + h ≤ 7 then
    some ((List.range h).flatMap (fun j => (List.range w).map (fun i => 7 * (fy + j) + fx + i)))
  else none

/-- The field is alive and holds no broken row. -/
def fieldWhole (s : State) (f : Nat) : Bool :=
  fieldAlive s f && (List.range 16).all (fun r => decide ((getRow s f r).kind ≠ .broken))

/-- A tile of a new rectangle: its scratchpad is zeroised, it is stopped, and every slot is invalid (R314, R316). -/
def Tile.fresh (T : Tile) : Tile :=
  { T.beginZero with
    run := false, multi := false, st := .stopped, stepD := none
    slots := mmap (fun _ v => v.cleared) T.slots }
def freshTiles (s : State) (fs : List Nat) : State :=
  forAll (fun s t => if isHole s t then s else zeroedTile (modTile s t Tile.fresh) t) (fs.flatMap fieldTiles) s

/-- Fields run an operating point: PLL-C is locked at it, the cycle count starts at 0 (R364, R366). -/
def fieldsAt (s : State) (op : Nat) (fs : List Nat) : State :=
  flushTraces (forAll (fun s f =>
    let D := getField s f
    if D.op = op && !D.stopped then s
    else setField s f { D with op := op, stopped := false, pllC := true, cyc := 0, half := false }) fs s)

/-- Fields that join a partition whose change has stopped CCLK wait with it for the restart (R367). -/
def fieldsHeld (s : State) (op : Nat) (fs : List Nat) : State :=
  forAll (fun s f => modField s f (fun D => { D with op := op, stopped := true, pllC := false, retried := false })) fs s

/-! ### Partitions (R314, R316 to R318) -/

/-- 0x2002. -/
def createPartition (s : State) (ep : Endpoint) (d : List Byte) : State × Byte :=
  let p := num d 0 1
  if fromVf ep then (s, stAccess)
  else match namedPort ep (num d 6 1), rectFields (num d 1 1) (num d 2 1) (num d 3 1) (num d 4 1) with
    | some port, some fs =>
      if 48 < p || !(fnExists s ⟨port, num d 5 1⟩) || !(fs.all (fieldWhole s)) then (s, stRange)
      else if isDefined s p || fs.any (fun f => (partOfField s f).isSome) then (s, stInUse)
      else
        let s := setPart s p { st := .idle, port := port, fn := num d 5 1, fx := num d 1 1, fy := num d 2 1, w := num d 3 1
                               h := num d 4 1, worst := true, measured := 0, key := true }
        (renewCeiling (freshTiles (fieldsAt s 4 fs) fs) p, stOk)
    | _, _ => (s, stRange)

/-- Every tile of a partition is zeroised before its command is answered. -/
def zeroedPart (s : State) (p : Nat) : State := forAll zeroedTile (partTiles s (getPart s p)) (zeroPart s p)

/-- The connections of a partition are disabled and its apertures are gone (R287, R317). -/
def dropScaleOut (s : State) (p : Nat) : State :=
  let s := forAll (fun s (e : Nat × Conn) =>
    if e.2.enabled && decide (e.2.part = p) then
      modConn (failConn s e.1 .disabled) e.1 (fun C => { C with desc := patch C.desc 0 [byteAt C.desc 0 &&& 0xFE] })
    else s) s.xdt.conns s
  { s with xdt := { s.xdt with aps := s.xdt.aps.filter (fun e => decide (e.2.part ≠ p)) } }

/-- Host-window reads of a partition are answered with an error (R317). -/
def endReads (s : State) (p : Nat) (port : HPort) : State :=
  let P := portOf s port
  let mine := P.reads.filter (fun e => decide (e.2.req.part = some p))
  let s := setPort s port { P with reads := P.reads.filter (fun e => decide (e.2.req.part ≠ some p)) }
  forAll (fun s (e : Nat × HostRead) => respond s e.2.req .error stNotReady [] false) mine s

/-- 0x2003, accepted in every state, FREE among them (Table 12.7). The context's reset ends before OK is returned (R344); a device-wide
reset that has taken its place leaves the context to be unbound here (R317, R460). -/
def releasePartition (s : State) (ep : Endpoint) (d : List Byte) : State × Byte :=
  let p := num d 0 1
  let P := getPart s p
  if fromVf ep || (decide (p ≤ 48) && !(writerHolds s ep p)) then (s, stAccess)
  else if 48 < p then (s, stRange)
  else if P.st = .free then (s, stOk)
  else
    let fs := P.fields
    let s := endReads s p P.port
    let s := if P.ctx.isSome then freeContext (finishContextReset (zeroedPart (beginContextReset s p false true) p) p) p else s
    let s := dropScaleOut s p
    let s := { s with dram := { s.dram with granules := s.dram.granules.filter (fun e => decide (e.2.owner ≠ p)) } }
    let s := forAll (fun s t => modTile s t (fun T => { T with multi := false })) (partTiles s P) s
    let s := { s with parts := mdel s.parts p }
    (releaseHeld (fieldsAt s 4 (fs.filter (fieldAlive s))), stOk)

/-- A command of the partition is outstanding. -/
def hasCommand (s : State) (p : Nat) : Bool :=
  let P := getPart s p
  let of (Q : Port_) : Bool := Q.qps.any (fun e => e.2.cmds.any (fun c => decide (P.ctx = some c.ctx)))
  P.launch.isSome || of s.portA || of s.portB

/-- 0x2004. A ceiling that has fallen is not raised by the move (R372). -/
def movePartition (s : State) (ep : Endpoint) (d : List Byte) : State × Byte :=
  let p := num d 0 1
  let P := getPart s p
  if fromVf ep || !(writerHolds s ep p) then (s, stAccess)
  else if 48 < p || P.st = .free then (s, stRange)
  else if P.st = .running || hasCommand s p then (s, stInUse)
  else match rectFields (num d 1 1) (num d 2 1) (num d 3 1) (num d 4 1) with
    | none => (s, stRange)
    | some fs =>
      let ok (f : Nat) : Bool := fieldWhole s f && (match partOfField s f with
        | none => true
        | some q => decide (q = p))
      if !(fs.all ok) then (s, stRange)
      else
        let left := P.fields.filter (fun f => !(fs.contains f) && fieldAlive s f)
        let s := setPart s p { P with
          fx := num d 1 1, fy := num d 2 1, w := num d 3 1, h := num d 4 1
          st := if P.ctx.isSome then .bound else .idle, arrived := [], faulted := none }
        let s := fieldsAt s 4 left
        let s := match P.change with
          | some (.stopped _) => fieldsHeld s P.op fs
          | _ => fieldsAt s P.op fs
        (lowerCeiling (freshTiles s fs) p, stOk)

/-- 0x2005: vector 1 of the new owner is raised (R329). -/
def transferPartition (s : State) (ep : Endpoint) (d : List Byte) : State × Byte :=
  let p := num d 0 1
  let P := getPart s p
  match namedPort ep (num d 6 1) with
  | none => (s, stRange)
  | some port =>
    if 48 < p || P.st = .free || !(fnExists s ⟨port, num d 5 1⟩) then (s, stRange)
    else if P.ctx.isSome then (s, stInUse)
    else (vectorOwner (setPart s p { P with port := port, fn := num d 5 1 }) p, stOk)

/-! ### Contexts (R315, R468) -/

/-- 0x2010. -/
def bindContext (s : State) (ep : Endpoint) (d : List Byte) : State × Byte :=
  let c := num d 0 1
  let p := num d 1 1
  let P := getPart s p
  if !(writerHolds s ep p) then (s, stAccess)
  else if (mfind s.ctxs c).isSome then (s, stInUse)
  else if P.st ≠ .idle then (s, stNotReady)
  else (setPart { s with ctxs := mput s.ctxs c p } p { P with ctx := some c, st := .bound }, stOk)

/-- Decide a context reset of a handle: NOT_READY where it is unbound. OK is answered when the reset has ended (R344,
answerOrWait). -/
def resetContext (s : State) (ep : Endpoint) (d : List Byte) (unbind : Bool) : State × Byte :=
  match mfind s.ctxs (num d 0 1) with
  | none => (s, stNotReady)
  | some p =>
    if !(writerHolds s ep p) then (s, stAccess) else (beginContextReset s p false unbind, stOk)

/-! ### Queue pairs (R319) -/

/-- 0x3004 of a pair starts at 0 when the pair is created, and at no other time (R396). -/
def zeroEnergy (s : State) (port : HPort) (qp : Nat) : State := modPort s port (fun P => { P with energies := mdel P.energies qp })

/-- 0x6820: a function that is not enabled is out of range. -/
def createQueuePair (s : State) (ep : Endpoint) (d : List Byte) : State × Byte :=
  let qp := num d 0 1
  let fn := num d 1 1
  let own := match hostFn ep with
    | none => true
    | some f => decide (f.fn = 0) || decide (f.fn = fn)
  match namedPort ep (num d 7 1) with
  | none => (s, stRange)
  | some port =>
    let lg (n : Nat) : Bool := decide (4 ≤ n) && decide (n ≤ 16)
    if !own then (s, stAccess)
    else if (getPair s port qp).isSome then (s, stInUse)
    else if !(lg (num d 2 1)) || !(lg (num d 3 1)) || num d 8 8 % 4096 ≠ 0 || num d 16 8 % 4096 ≠ 0
        || !(fnExists s ⟨port, fn⟩) || vectorsOf fn ≤ num d 4 2 then (s, stRange)
    else
      (putPair (zeroEnergy s port qp) port qp {
        fn := fn, sqLog2 := num d 2 1, cqLog2 := num d 3 1, vector := num d 4 2, irq := (num d 6 1).testBit 0
        sqBase := BitVec.ofNat 64 (num d 8 8), cqBase := BitVec.ofNat 64 (num d 16 8), sqHead := 0
        sqTail := 0, cqHead := 0, cqTail := 0, posted := [], cmds := [], done := [], pendIrq := false
        lastIrq := none, moved := [] }, stOk)

/-- The number that a LAUNCH of a deleted pair keeps: no pair has it, so that its completion is not written. -/
def noPair : Nat := 256

/-- 0x6821: BUSY while a command other than a LAUNCH has not been completed, a completion that waits for a CQ slot included (log entry
15). A pair that does not exist is out of range (DESIGN CHOICE, log entry 180). -/
def deleteQueuePair (s : State) (ep : Endpoint) (d : List Byte) : State × Byte :=
  let qp := num d 0 1
  let port := match hostFn ep with
    | some f => f.port
    | none => if (num d 1 1).testBit 0 then .b else .a
  match getPair s port qp with
  | none => (s, stRange)
  | some q =>
    let own := match hostFn ep with
      | none => true
      | some f => decide (f.fn = 0) || decide (f.fn = q.fn)
    if !own then (s, stAccess)
    else if q.cmds.any (fun c => decide (c.opcode ≠ opLaunch)) || q.posted ≠ []
        || q.done.any (fun x => !x.launch) then (s, stBusy)
    else
      let s := modPort s port (fun P => { P with qps := mdel P.qps qp })
      let keep (P : Part) : Part := match P.launch with
        | some (h, n, c) => if h = port && n = qp then { P with launch := some (h, noPair, c), pair := none } else P
        | none => P
      ({ s with parts := mmap (fun _ P => keep P) s.parts }, stOk)

/-! ### Host-window regions (R309, R311, Table 12.6) -/

/-- A write of a region's descriptor, for requests that arrive after it (R312). -/
def writeRegion (s : State) (ep : Endpoint) (ix sub : Nat) (d : List Byte) : State × Byte :=
  let port := regionPort ix
  let own := match hostFn ep with
    | none => true
    | some f => decide (f.fn = 0) || decide (f.fn = num d 8 1)
  let base := num d 0 8
  if !own then (s, stAccess)
  else if base % 4096 ≠ 0 || 2 ^ 64 < base + 2 ^ 32 || 31 < num d 8 1 then (s, stRange)
  else
    let fl := num d 9 1
    let r : HostRegion := ⟨BitVec.ofNat 64 base, num d 8 1, fl.testBit 0, fl.testBit 1, fl.testBit 2, fl.testBit 3⟩
    (modPort s port (fun P => { P with
      regions := if allZero d then mdel P.regions (regionOf ix sub) else mput P.regions (regionOf ix sub) r }), stOk)

/-! ### Granules and interleave (R228, R229, R238) -/

/-- A range of granules 0 to 1,342. -/
def granuleRange (d : List Byte) : Option (List Nat) :=
  let first := num d 0 2
  let n := num d 2 2
  if 1 ≤ n && first + n ≤ 1343 then some ((List.range n).map (· + first)) else none

/-- 0x4803: zero-filled, then owned. -/
def allocateGranules (s : State) (ep : Endpoint) (d : List Byte) : State × Byte :=
  let p := num d 4 1
  if !(writerHolds s ep p) then (s, stAccess)
  else match granuleRange d with
    | none => (s, stRange)
    | some gs =>
      if !(isDefined s p) then (s, stRange)
      else if gs.any (fun g => (mfind s.dram.granules g).isSome) then (s, stInUse)
      else
        let s := forAll zeroGranule gs s
        let v : Granule := ⟨p, (num d 5 1).testBit 0⟩
        ({ s with dram := { s.dram with granules := gs.foldl (fun m g => mput m g v) s.dram.granules } }, stOk)

/-- 0x4804. -/
def releaseGranules (s : State) (ep : Endpoint) (d : List Byte) : State × Byte :=
  let p := num d 4 1
  if !(writerHolds s ep p) then (s, stAccess)
  else if isDefined s p && anyRun s p then (s, stInUse)
  else match granuleRange d with
    | none => (s, stRange)
    | some gs =>
      let mine (g : Nat) : Bool := match mfind s.dram.granules g with
        | none => false
        | some v => decide (v.owner = p)
      if !(isDefined s p) || !(gs.all mine) then (s, stRange)
      else ({ s with dram := { s.dram with granules := gs.foldl (fun m g => mdel m g) s.dram.granules } }, stOk)

/-- A write to 0x4801: IN_USE while a granule is owned; the contents of granule 1,343 are carried over, which in a memory kept
by address is no change, and the complexes use the new mapping. A value above 1 is RANGE before IN_USE (DESIGN CHOICE, log entry
134). -/
def writeInterleave (s : State) (d : List Byte) : State × Byte :=
  if 1 < num d 0 1 then (s, stRange)
  else if s.dram.granules ≠ [] then (s, stInUse)
  else ({ s with dram := { s.dram with loc := decide (num d 0 1 = 1) } }, stOk)

end Sys2Proof.Machine
end

