-- ==== Sys2Proof/Machine/DictOps.lean ====
section
/-!
DEFINITION. Dictionary writes of settings and requests (R154, R171, R206, R257, R270, R287, R303, R305, R353, R360, R396, R429,
R437, R444, R464, R468, and the entry tables of each chapter). Each operation is given a value that has passed checks 1 to 6
of R338 and answers the state and a status; a status other than OK leaves the state as it was.
-/
namespace Sys2Proof.Machine

/-- A value in a range, else RANGE. -/
def ranged (s : State) (v lo hi : Nat) (act : State) : State × Byte := if lo ≤ v && v ≤ hi then (act, stOk) else (s, stRange)

/-! ### The saved dictionary (R353, R354) -/

/-- A value comes into force. -/
def setLive (s : State) (ix sub : Nat) (d : List Byte) : State :=
  { s with saved := { s.saved with live := mput s.saved.live (entryKey ix sub) d } }

/-- The generation of the next copy. -/
def nextGen (v : Saved) : Nat := Nat.max (if v.valid0 then v.gen0 else 0) (if v.valid1 then v.gen1 else 0) + 1

/-- Write a new copy over the older of the two; a copy that is not valid is the older. -/
def writeCopy (v : Saved) (l : SMap (List Byte)) : Saved :=
  if !v.valid0 || (v.valid1 && decide (v.gen0 ≤ v.gen1)) then { v with copy0 := l, gen0 := nextGen v, valid0 := true }
  else { v with copy1 := l, gen1 := nextGen v, valid1 := true }

/-- A flash write has failed: 0x1800:02 counts it and a firmware event is raised (R353, Table 18.2). -/
def flashFails (s : State) : State :=
  raise (addTotal s 0x1800 2 1) (blankEvent clFirmware sevInfo meFirmware acNone) 0

/-- ALERT_N is low while a class that the alert mask 0x5804 names is latched (R444, Table 19.4). -/
def setAlert (s : State) : State :=
  { s with pins := { s.pins with
    alertN := decide (s.events.latched &&& BitVec.ofNat 64 (liveNat s 0x5804 0 0x7FFFFFE) = 0) } }

/-- A write to a saved entry has taken effect; the copy is written before OK, and BUSY answers a failed flash write, the
value staying in force (R353). A new alert mask acts on the classes already latched (R444). -/
def saveEntry (s : State) (ix sub : Nat) (d : List Byte) (flashOk : Bool) : State × Byte :=
  let s := setLive s ix sub d
  let s := if ix = 0x5804 then setAlert s else s
  if flashOk then ({ s with saved := writeCopy s.saved s.saved.live }, stOk) else (flashFails s, stBusy)

/-- 0x1800:03 (Table 13.10): a copy of defaults, in force at the next cold boot. -/
def restoreDefaults (s : State) (d : List Byte) (flashOk : Bool) : State × Byte :=
  if num d 0 1 = 0 then (s, stOk)
  else if flashOk then ({ s with saved := writeCopy s.saved [] }, stOk)
  else (flashFails s, stBusy)

/-! ### Settings of a partition (R484: NOT_READY where it is not defined) -/

def setCfg (s : State) (p : Nat) (g : PartCfg → PartCfg) : State := modPart s p (fun P => { P with cfg := g P.cfg })

/-- Work that 0x2401 and 0x2402 wait for (R206). -/
def partBusy (s : State) (p : Nat) : Bool :=
  (partTiles s (getPart s p)).any (fun t =>
    let T := getTile s t
    T.run || !T.quiet || T.loading)

/-- The new slot mode on a tile: MULTI_SLOT, and the stream credits of that mode (R68, R175); configuration credits stay. -/
def Tile.slotMode (T : Tile) (m : Bool) : Tile :=
  { T with
    multi := m
    su := { T.su with
      used := []
      pulses := (mmap (fun _ (l : List Nat) => l.filter (fun x => decide (x = 4))) T.su.pulses).filter (fun e => e.2 ≠ []) } }

/-- 0x2401. The spec gives RANGE and IN_USE no order here: RANGE comes first (DESIGN CHOICE, log entry 134). -/
def writeReconf (s : State) (p : Nat) (d : List Byte) : State × Byte :=
  if 1 < num d 0 1 then (s, stRange)
  else if partBusy s p then (s, stInUse)
  else (setCfg s p (fun c => { c with reconf := byteAt d 0 }), stOk)

/-- 0x2402. RANGE comes before IN_USE (DESIGN CHOICE, log entry 134). -/
def writeSlotMode (s : State) (p : Nat) (d : List Byte) : State × Byte :=
  if 1 < num d 0 1 then (s, stRange)
  else if partBusy s p then (s, stInUse)
  else
    let s := setCfg s p (fun c => { c with slotMode := byteAt d 0 })
    (forAll (fun s t => modTile s t (fun T => T.slotMode (decide (num d 0 1 = 1)))) (partTiles s (getPart s p)) s, stOk)

/-- 0x2801, the routing box. RANGE comes before IN_USE (DESIGN CHOICE, log entry 134). -/
def writeBox (s : State) (p : Nat) (d : List Byte) : State × Byte :=
  if 1 < num d 0 1 then (s, stRange)
  else if anyRun s p then (s, stInUse)
  else (setCfg s p (fun c => { c with box := byteAt d 0 }), stOk)

/-- 0x2802: at least 0x1000. -/
def writeStall (s : State) (p : Nat) (d : List Byte) : State × Byte :=
  (setCfg s p (fun c => { c with stall := BitVec.ofNat 32 (Nat.max 0x1000 (num d 0 4)) }), stOk)

/-- 0x3002: points 0 to 4, caps 1 to 16 (R396). -/
def writePhases (s : State) (p : Nat) (d : List Byte) : State × Byte :=
  let ok (i : Nat) : Bool := decide (num d (2 * i) 1 ≤ 4) && decide (1 ≤ num d (2 * i + 1) 1) && decide (num d (2 * i + 1) 1 ≤ 16)
  if (getPart s p).st = .running then (s, stInUse)
  else if !((List.range 8).all ok) then (s, stRange)
  else (setCfg s p (fun c => { c with
    phases := (List.range 8).foldl (fun m i => mset 0x1000 m i (BitVec.ofNat 16 (num d (2 * i) 2))) [] }), stOk)

/-- 0x7801 (R171). -/
def writeScale (s : State) (p : Nat) (d : List Byte) : State × Byte :=
  let v : Word64 := BitVec.ofNat 64 (num d 0 8)
  let bad := !((scTile v).inGrid) || decide (partOf s (scTile v) ≠ some p) || decide (scOff v % 128 ≠ 0)
    || !(inPad (scOff v) (128 * scCount v))
  if scValid v && bad then (s, stRange) else (setCfg s p (fun c => { c with scale := v }), stOk)

def writeSeed (s : State) (p : Nat) (d : List Byte) : State × Byte :=
  (setCfg s p (fun c => { c with seed := BitVec.ofNat 64 (num d 0 8) }), stOk)

/-- 0x7881: in force from the next step boundary. -/
def writePolicy (s : State) (p : Nat) (d : List Byte) : State × Byte :=
  ranged s (num d 0 1) 0 1 (setCfg s p (fun c => { c with policyNext := byteAt d 0 }))

/-! ### Protected regions (R464, R468) -/

def regionAt (d : List Byte) (i : Nat) : Region :=
  ⟨num d (16 * i) 2, num d (16 * i + 2) 2, num d (16 * i + 4) 2, (num d (16 * i + 6) 1).testBit 0⟩

/-- The two granule ranges of a descriptor: first granule and count. -/
def Region.ranges (r : Region) : List (Nat × Nat) := [(r.copy0, r.count), (r.copy1, r.count)]

def overlap (a b : Nat × Nat) : Bool := decide (a.1 < b.1 + b.2) && decide (b.1 < a.1 + a.2)
def anyOverlap : List (Nat × Nat) → Bool
  | [] => false
  | a :: r => r.any (overlap a) || anyOverlap r

/-- A granule may be in a protected copy of p: p owns it and it is not SHARED. -/
def protectable (s : State) (p g : Nat) : Bool :=
  match mfind s.dram.granules g with
  | none => false
  | some v => decide (v.owner = p) && !v.shared

def rangeOk (s : State) (p : Nat) (r : Nat × Nat) : Bool :=
  decide (r.2 ≠ 0) && decide (r.1 + r.2 ≤ 1343) && ((List.range r.2).all (fun i => protectable s p (r.1 + i)))

/-- 0x6002: the fault counts are cleared, C is none, and held writes go on. -/
def writeRegions (s : State) (p : Nat) (d : List Byte) : State × Byte :=
  let rs := ((List.range 8).map (regionAt d)).filter (fun r => r.valid)
  let ranges := rs.flatMap Region.ranges
  if (getPart s p).st = .running then (s, stInUse)
  else if !(ranges.all (rangeOk s p)) || anyOverlap ranges then (s, stRange)
  else
    let keep := (List.range 8).filter (fun i => !(allZero ((d.drop (16 * i)).take 16)))
    let s := modPart s p (fun P => { P with
      regions := keep.map (fun i => (i, regionAt d i)), faults := [], c := none })
    (releaseHeld s, stOk)

/-- A per-partition setting. -/
def writePartSetting (s : State) (ix p : Nat) (d : List Byte) : State × Byte :=
  if (getPart s p).st = .free then (s, stNotReady)
  else if ix = 0x2401 then writeReconf s p d
  else if ix = 0x2402 then writeSlotMode s p d
  else if ix = 0x2801 then writeBox s p d
  else if ix = 0x2802 then writeStall s p d
  else if ix = 0x3002 then writePhases s p d
  else if ix = 0x6002 then writeRegions s p d
  else if ix = 0x7801 then writeScale s p d
  else if ix = 0x7803 then writeSeed s p d
  else writePolicy s p d

/-! ### Queues (R257) -/

/-- Ring parameters of a queue that is set up. -/
def ringOk (log2 base maxmsg : Nat) : Bool :=
  decide (12 ≤ log2) && decide (log2 ≤ 20) && decide (base + 2 ^ log2 ≤ padTop) && decide (base % 64 = 0)
    && decide (maxmsg ≠ 0) && decide (recBytes maxmsg ≤ 2 ^ (log2 - 1))

/-- 0x2810. A hole of the partition has no tile to set up: NOT_READY. -/
def queueSetup (s : State) (ep : Endpoint) (d : List Byte) : State × Byte :=
  let t : XY := ⟨num d 0 1, num d 1 1⟩
  let part := if t.inGrid then partOf s t else none
  match part with
  | none => (s, stAccess)
  | some p =>
    let n := num d 2 1
    let q := (getTile s t).getQ n
    let log2 := num d 3 1
    if !(writerHolds s ep p) then (s, stAccess)
    else if isHole s t then (s, stNotReady)
    else if q.winsum ≠ 0 || q.wp ≠ q.rp then (s, stInUse)
    else if log2 = 0 then (modTile s t (fun T => T.setQ n {}), stOk)
    else if !(ringOk log2 (num d 4 4) (num d 8 4)) then (s, stRange)
    else
      let q : Queue := {
        base := BitVec.ofNat 16 (num d 4 4 / 64), log2 := BitVec.ofNat 5 log2, maxmsg := BitVec.ofNat 21 (num d 8 4) }
      (modTile s t (fun T => T.setQ n q), stOk)

/-! ### Connections and apertures (R287, R305) -/

/-- The host that writes holds the partition that a descriptor names; an id that is no partition's is nobody's (R287, R484). -/
def holdsNamed (s : State) (ep : Endpoint) (p : Nat) : Bool :=
  match hostFn ep with
  | none => true
  | some f => isDefined s p && (getPart s p).heldBy f.port f.fn

/-- A connection's descriptor (Table 11.5): the 40 bytes that are writable. -/
def writeConn (s : State) (ep : Endpoint) (c : Nat) (d : List Byte) : State × Byte :=
  let new : Conn := { desc := d.take 40 }
  let on := (getConn s c).enabled
  if !(holdsNamed s ep new.part) then (s, stAccess)
  else if deviceId s = 0xFFFF then (s, stNotReady)
  else if !(isDefined s new.part) || new.remoteDev = 0xFFFF || new.remoteDev = deviceId s || new.pkey = 0
      || 4096 < new.window then (s, stRange)
  else if on && new.enabled then (s, stInUse)
  else
    let s := if on then failConn s c .disabled else s
    let s := modConn s c (fun C => { C with desc := d.take 40 })
    (if new.enabled then restartingConn s c else s, stOk)

/-- An aperture's descriptor (Table 11.7); all zeros removes it. -/
def writeAperture (s : State) (ep : Endpoint) (n : Nat) (d : List Byte) : State × Byte :=
  let a : Ap := ⟨(num d 3 1).testBit 0, num d 0 2, num d 2 1, num d 4 8⟩
  let C := getConn s a.conn
  if !(holdsNamed s ep a.part) then (s, stAccess)
  else if isDefined s a.part && anyRun s a.part then (s, stInUse)
  else if a.valid && (a.base % 4096 ≠ 0 || !C.enabled || C.part ≠ a.part || !(isDefined s a.part)) then (s, stRange)
  else
    ({ s with xdt := { s.xdt with aps := if allZero d then mdel s.xdt.aps n else mput s.xdt.aps n a } }, stOk)

/-! ### Scale-out settings -/

/-- 0x7001:01: a device id, refused while a connection is enabled. -/
def writeDeviceId (s : State) : State × Byte :=
  if s.xdt.conns.any (fun e => e.2.enabled) then (s, stInUse) else (s, stOk)

/-- 0x7003: a port that is not enabled has no link. -/
def writePortConfig (s : State) (e : Nat) (d : List Byte) : State × Byte :=
  if (num d 0 1).testBit 1 then (s, stOk)
  else
    let v : Eth := mget {} s.xdt.eths e
    let v := { v with up := false, lanes := 0, anDone := false, fec := false }
    ({ s with xdt := { s.xdt with eths := mset {} s.xdt.eths e v } }, stOk)

/-- 0x7040:01: the port whose clock the boot master runs; it starts unlocked, and its first lock may step the GTC forward, once for
each naming: R303 does not say whether a port named again may step it again (DESIGN CHOICE, log entry 157). -/
def writeTimePort (s : State) (d : List Byte) : State × Byte :=
  let v := num d 0 1
  if 15 < v && v ≠ 0xFF then (s, stRange)
  else ({ s with xdt := { s.xdt with timeState := if v = 0xFF then 0 else 1, stepped := false } }, stOk)

/-- A value of four bytes in two's complement. -/
def signed32 (v : Nat) : Int := if v < 2 ^ 31 then Int.ofNat v else Int.ofNat v - 2 ^ 32

/-- 0x7040:02: RANGE before IN_USE where a write breaks both (DESIGN CHOICE, log entry 134). -/
def writeRateAdj (s : State) (d : List Byte) : State × Byte :=
  let v := signed32 (num d 0 4)
  if v < -2147484 || 2147484 < v then (s, stRange)
  else if liveNat s 0x7040 1 0xFF ≠ 0xFF then (s, stInUse)
  else ({ s with xdt := { s.xdt with rateAdj := v } }, stOk)

/-! ### Clocks (R360) -/

/-- Every PLL goes to a reference: counted, and raised as a corrected event. -/
def switchRef (s : State) (r : RefClk) : State :=
  let s := addTotal { s with clk := { s.clk with active := some r } } 0x4000 4 1
  raise s (blankEvent clRefclk sevCorrected meMonitor acNone) 0

def refGood (s : State) (r : RefClk) : Bool :=
  match r with
  | .a => s.clk.goodA
  | .b => s.clk.goodB

/-- 0x4000:02, applied at once. -/
def writePreferred (s : State) (d : List Byte) : State × Byte :=
  let v := num d 0 1
  let r : RefClk := if v = 0 then .a else .b
  if 1 < v then (s, stRange)
  else if !(refGood s r) then (s, stNotReady)
  else if s.clk.active = none || s.clk.active = some r then (s, stOk)
  else (switchRef s r, stOk)

/-! ### Test requests (R437, Table 17.6) -/

/-- The writer may ask for a test in a field: its partition's owner, a PF where it has none, M. -/
def mayTest (s : State) (ep : Endpoint) (f : Nat) : Bool :=
  match hostFn ep with
  | none => true
  | some h => match partOfField s f with
    | none => decide (h.fn = 0)
    | some p => (getPart s p).heldBy h.port h.fn

/-- A request that its target accepts is queued; a 17th is BUSY. -/
def queueTest (s : State) (q : TestReq) : State × Byte :=
  if 16 ≤ s.tests.requests.length then (s, stBusy)
  else ({ s with tests := { s.tests with requests := s.tests.requests ++ [q] } }, stOk)

def requestSite (s : State) (q : TestReq) : State × Byte :=
  let a : SiteId := ⟨q.a, q.row, q.pc⟩
  let w := getRow s q.a q.row
  if !(fieldAlive s q.a) || w.kind = .broken || (getSite s a).failed.isSome then (s, stNotReady)
  else if w.kind = .spare || (w.kind = .binCloaked && w.e = q.pc) then queueTest s q
  else (s, stInUse)

def requestField (s : State) (q : TestReq) : State × Byte :=
  if (partOfField s q.a).isSome then (s, stInUse)
  else if !(fieldAlive s q.a) then (s, stNotReady)
  else queueTest s q

/-- One more full calibration of each of the eight channels is to run. -/
def requestCal (s : State) (q : TestReq) : State × Byte :=
  let C := getComplex s q.a
  if C.lost then (s, stNotReady)
  else
    let x := queueTest s q
    if x.2 = stOk then (setComplex x.1 q.a { C with extraCal := C.extraCal + 8 }, stOk) else x

/-- 0x5020. -/
def requestTest (s : State) (ep : Endpoint) (d : List Byte) : State × Byte :=
  let q : TestReq := ⟨num d 0 1, num d 1 1, num d 2 1, num d 3 1⟩
  if q.kind = 0 then
    if 48 < q.a || 15 < q.row || 16 < q.pc then (s, stRange)
    else if !(mayTest s ep q.a) then (s, stAccess)
    else requestSite s q
  else if q.kind = 1 then
    if 48 < q.a then (s, stRange)
    else if !(mayTest s ep q.a) then (s, stAccess)
    else requestField s q
  else if q.kind = 2 then
    if 27 < q.a then (s, stRange) else requestCal s q
  else (s, stRange)

def testCode : TestRes → Byte
  | .pass => 0
  | .fail => 1
  | .abandoned => 2

/-- The walk, or a visit in place, can still come to the site of a request. -/
def visitable (s : State) (q : TestReq) : Bool :=
  let w := getRow s q.a q.row
  fieldAlive s q.a && (getSite s ⟨q.a, q.row, q.pc⟩).failed.isNone
    && (decide (w.kind = .spare) || (decide (w.kind = .binCloaked) && decide (w.e = q.pc)))

/-- A request may complete so: a site's is completed by its visit (visitResult), or abandoned where none can come (DEDUCED, log entry
162); a DRAM calibration's when its windows have run (R437). -/
def testDone (s : State) (q : TestReq) (res : TestRes) : Bool :=
  if q.kind = 0 then decide (res = .abandoned) && !(visitable s q)
  else decide (q.kind ≠ 2) || decide ((getComplex s q.a).extraCal
    ≤ 8 * ((s.tests.requests.filter (fun r => decide (r.kind = 2) && decide (r.a = q.a))).length - 1))

/-- A site that a field test finds failing, by the cause of its own failing (R438); one that only misses a point at +20 mV in the
sweep of full BIST is dealt with under R372. -/
def testFinds (s : State) (f : Nat) (x : SiteId × SiteFault) : State :=
  if x.1.valid && decide (x.1.field = f) && (getSite s x.1).failed.isNone && fieldAlive s f then
    match x.2 with
    | .router => siteFails (setSite s x.1 { (getSite s x.1) with routerBad := true }) x.1 1 meBist 0
    | .bist => siteFails s x.1 1 meBist 0
    | .ochre k => siteFails s x.1 2 meOchre k.toNat
    | .margin => binFails s x.1
  else s

/-- TEST_RESULT of the k-th request: the record of 0x5021 (Table 17.9), and what a failed field test has found. -/
def execTestResult (k : Nat) (res : TestRes) (ochre : Byte) (failed : List (SiteId × SiteFault)) (s : State) : Out :=
  .next (match s.tests.requests[k]? with
    | none => s
    | some q =>
      if s.boot.st = .ready && testDone s q res then
        let s := { s with tests := { s.tests with requests := s.tests.requests.eraseIdx k } }
        let s := putResult s q.kind q.a q.row q.pc (testCode res) ochre
        if q.kind = 1 && res = .fail then forAll (fun s x => testFinds s q.a x) failed s else s
      else s)

/-! ### Events and resets (R444, R468) -/

/-- 0x5803: ALERT_N is released when no masked class stays latched. -/
def clearLatched (s : State) (d : List Byte) : State × Byte :=
  let left := s.events.latched &&& ~~~(BitVec.ofNat 64 (num d 0 8))
  (setAlert { s with events := { s.events with latched := left } }, stOk)

/-- 0x5805. -/
def writeIrqMask (s : State) (sub : Nat) (d : List Byte) : State × Byte :=
  let m : Word64 := BitVec.ofNat 64 (num d 0 8)
  ({ s with events := if sub = 1 then { s.events with maskA := m } else { s.events with maskB := m } }, stOk)

/-- 0x6000:02 and 0x6000:03: writing 1 decides a reset. -/
def writeCompute (s : State) (d : List Byte) : State × Byte := (if num d 0 1 = 1 then decideCompute s else s, stOk)
def writeFull (s : State) (d : List Byte) : State × Byte := (if num d 0 1 = 1 then decideFull s else s, stOk)

/-! ### Monitors (R154) -/

def writeWide (s : State) (d : List Byte) : State × Byte := ({ s with wideTags := BitVec.ofNat 256 (num d 0 32) }, stOk)
def clearHist (s : State) (d : List Byte) : State × Byte := (if num d 0 1 = 1 then { s with hist := [] } else s, stOk)

/-! ### Saved settings -/

/-- The own rules of the saved entries, before the value is saved. -/
def writeSavedEntry (s : State) (ix sub : Nat) (d : List Byte) : State × Byte :=
  let v := num d 0 d.length
  if ix = 0x1100 then (if sub = 1 then (s, stOk) else ranged s v 1 255 s)
  else if ix = 0x3001 then ranged s v 5000 22000 s
  else if ix = 0x3400 then ranged s v 80 95 s
  else if ix = 0x4000 then writePreferred s d
  else if ix = 0x4801 then writeInterleave s d
  else if ix = 0x5001 then ranged s v 25 1000 s
  else if ix = 0x5804 then (s, stOk)
  else if ix = 0x6003 then ranged s v 10 10000 s
  else if ix = 0x6802 then ranged s v 4 6 s
  else if ix = 0x7001 then writeDeviceId s
  else if ix = 0x7003 then writePortConfig s (sub - 1) d
  else if ix = 0x7040 then writeTimePort s d
  else if ix = 0x8010 then ranged s v 0 1 s
  else (s, stOk)

/-- Every other entry but those of the security chapter. -/
def writePlainEntry (s : State) (ep : Endpoint) (ix sub : Nat) (d : List Byte) : State × Byte :=
  if perPart ix then writePartSetting s ix (sub - 1) d
  else if ix = 0x2002 then createPartition s ep d
  else if ix = 0x2003 then releasePartition s ep d
  else if ix = 0x2004 then movePartition s ep d
  else if ix = 0x2005 then transferPartition s ep d
  else if ix = 0x2010 then bindContext s ep d
  else if ix = 0x2011 then resetContext s ep d true
  else if ix = 0x2810 then queueSetup s ep d
  else if ix = 0x4803 then allocateGranules s ep d
  else if ix = 0x4804 then releaseGranules s ep d
  else if ix = 0x5020 then requestTest s ep d
  else if ix = 0x5803 then clearLatched s d
  else if ix = 0x5805 then writeIrqMask s sub d
  else if ix = 0x6000 then
    if sub = 1 then resetContext s ep d false else if sub = 2 then writeCompute s d else writeFull s d
  else if 0x6810 ≤ ix && ix ≤ 0x6813 then writeRegion s ep ix sub d
  else if ix = 0x6820 then createQueuePair s ep d
  else if ix = 0x6821 then deleteQueuePair s ep d
  else if 0x7010 ≤ ix && ix ≤ 0x701F then writeConn s ep (connOf ix sub) d
  else if ix = 0x7020 || ix = 0x7021 then writeAperture s ep (apOf ix sub) d
  else if ix = 0x7040 then writeRateAdj s d
  else if ix = 0x7882 then writeWide s d
  else if ix = 0x7883 then clearHist s d
  else (s, stOk)

end Sys2Proof.Machine
end

