-- ==== Sys2Proof/Machine/Security.lean ====
section
/-!
DEFINITION. Security (R402 to R407, R414 to R418): firmware images, the minimum SVN, owner slots and owner commands, the debug
unlock.
-/
namespace Sys2Proof.Machine

/-! ### Images (R402, R404, R406, Tables 16.2 and 16.3) -/

/-- Entry i of the section table. -/
def sectionEntry (l : List Byte) (i : Nat) : List Byte := (l.drop (1920 + 80 * i)).take 80

/-- A section entry is well formed and its section lies within the body. -/
def imageSectionOk (body : Nat) (e : List Byte) : Bool :=
  let kind := num e 0 1
  let off := num e 4 4
  let len := num e 8 4
  decide (1 ≤ kind) && decide (kind ≤ 5) && zeroRange e 1 3 && zeroRange e 12 4 && decide (off % 4096 = 0)
    && decide (off + len ≤ body) && (decide (kind ≠ 4) || decide (len ≤ 0x200000))

/-- R404 check 1 and the length of the write. -/
def imageFormed (l : List Byte) : Bool :=
  let body := num l 16 4
  let n := num l 24 1
  decide (4096 ≤ l.length) && decide (num l 0 4 = 0x39345758) && decide (num l 4 4 = 1) && decide (num l 12 4 ≤ 63)
    && decide (body % 4096 = 0) && decide (body ≤ 0x04000000) && decide (l.length = 4096 + body)
    && decide (1 ≤ n) && decide (n ≤ 8) && zeroRange l 25 39 && zeroRange l 1857 63 && zeroRange l 2560 256
    && (List.range 8).all (fun i => if i < n then imageSectionOk body (sectionEntry l i) else allZero (sectionEntry l i))

/-- R404 check 5. -/
def digestsOk (l : List Byte) : Bool :=
  (List.range (num l 24 1)).all (fun i =>
    let e := sectionEntry l i
    decide (Config.shake512 ((l.drop (4096 + num e 4 4)).take (num e 8 4)) = BitVec.ofNat 512 (num e 16 64)))

/-- R404 checks 2 to 4. -/
def imageTrusted (s : State) (l : List Byte) : Bool :=
  let key := (l.drop 64).take 1793
  decide (Config.shake512 key = Config.rootKeyDigest)
    && Config.falconVerify key (l.take 2816) ((l.drop 2816).take 1280) && decide (minSvnOf s ≤ num l 12 4)

/-- The image that did not boot becomes the one written, or none where programming failed; its Woad payload is its section of
kind 4. What a boot has found of the image before is void. -/
def putImage (s : State) (v : Option (Nat × Nat × Nat)) (head woad : List Byte) : State :=
  let s := { s with boot := { s.boot with badImages := s.boot.badImages &&& (if s.sec.booted = 0 then 1 else 2) } }
  if s.sec.booted = 0 then { s with sec := { s.sec with imageB := v, headerB := some head, woadB := some woad } }
  else { s with sec := { s.sec with imageA := v, headerA := some head, woadA := some woad } }

/-- The section of an image that has a kind (Table 16.3): the first one, empty where it has none. -/
def sectionOf (l : List Byte) (kind : Nat) : List Byte :=
  match ((List.range (num l 24 1)).map (sectionEntry l)).find? (fun e => decide (num e 0 1 = kind)) with
  | none => []
  | some e => (l.drop (4096 + num e 4 4)).take (num e 8 4)

/-- 0x8012. -/
def writeImage (s : State) (l : List Byte) (flashOk : Bool) : State × Byte :=
  if !(imageFormed l) || !(digestsOk l) then (s, stRange)
  else if !(imageTrusted s l) then (s, stSecurity)
  else if !flashOk then (putImage s none [] [], stBusy)
  else (putImage s (some (num l 8 4, num l 12 4, num l 20 4)) (l.take 4096) (sectionOf l 4), stOk)

/-- 0x8011 (R407). -/
def writeCommitSvn (s : State) (d : List Byte) : State × Byte :=
  if num d 0 1 = 0 then (s, stOk)
  else if s.sec.runSvn ≤ minSvnOf s then (s, stRange)
  else ({ s with sec := { s.sec with minSvn := s.sec.runSvn } }, stOk)

/-! ### Owner slots (R414, R415) -/

def slotValid (v : Byte × BitVec 512) : Bool := v.1.getLsbD 0
def slotKeys (v : Byte × BitVec 512) : Bool := v.1.getLsbD 1
def slotDebug (v : Byte × BitVec 512) : Bool := v.1.getLsbD 2
def anyValid (m : SMap (Byte × BitVec 512)) : Bool := m.any (fun e => slotValid e.2)

/-- Valid slots, none of which can sign. -/
def unsignable (m : SMap (Byte × BitVec 512)) : Bool := anyValid m && !(m.any (fun e => slotValid e.2 && slotKeys e.2))

/-- Slot contents from their 72 bytes. -/
def slotOf (d : List Byte) : Byte × BitVec 512 := (byteAt d 0, BitVec.ofNat 512 (num d 8 64))

def putSlots (s : State) (m : SMap (Byte × BitVec 512)) : State := { s with sec := { s.sec with slots := m } }

/-- A change of the security area takes effect when flash takes it, in both copies (R415). -/
def securityArea (s act : State) (flashOk : Bool) : State × Byte :=
  if flashOk then ({ act with saved := { act.saved with area := 3 } }, stOk) else (s, stBusy)

/-- A direct write of 0x8020. -/
def writeSlot (s : State) (n : Nat) (d : List Byte) (flashOk : Bool) : State × Byte :=
  let m := mset (0, 0) s.sec.slots n (slotOf d)
  if anyValid s.sec.slots then (s, stSecurity)
  else if unsignable m then (s, stRange)
  else securityArea s (putSlots s m) flashOk

/-- A direct write of 0x8023. -/
def writeDebugPolicy (s : State) (d : List Byte) (flashOk : Bool) : State × Byte :=
  if anyValid s.sec.slots then (s, stSecurity)
  else securityArea s { s with sec := { s.sec with policy := byteAt d 0 } } flashOk

/-- The nonce is replaced (R415). -/
def drawNonce (s : State) : State := { s with sec := { s.sec with nonce := s.sec.nonce + 1, nonceHeld := true } }

/-- The first check of R415: OP, TARGET, reserved bytes and bits. -/
def commandFormed (d : List Byte) : Bool :=
  let op := num d 0 1
  let slot := (d.drop 36).take 72
  let target := num d 1 1
  let shape := if op = 1 then within slot 0 7 && zeroRange slot 1 7 else allZero slot
  let slotOk := if op = 3 then decide (target ≤ 3) else decide (1 ≤ target) && decide (target ≤ 4)
  decide (1 ≤ op) && decide (op ≤ 3) && slotOk && decide (num d 3 1 = 0) && shape

/-- The second: nonce, signer and signature. -/
def commandSigned (s : State) (d : List Byte) : Bool :=
  let v := ownerSlot s (num d 2 1)
  let key := (d.drop 108).take 1793
  s.sec.nonceHeld && decide ((d.drop 4).take 32 = nonceBytes s) && slotValid v && slotKeys v
    && decide (Config.shake512 key = v.2) && Config.falconVerify key (d.take 1901) ((d.drop 1901).take 1280)

/-- The change that a command makes. -/
def commandChange (s : State) (d : List Byte) : State :=
  let op := num d 0 1
  let n := num d 1 1
  if op = 1 then putSlots s (mset (0, 0) s.sec.slots n (slotOf ((d.drop 36).take 72)))
  else if op = 2 then putSlots s (mset (0, 0) s.sec.slots n (0, 0))
  else { s with sec := { s.sec with policy := byteAt d 1 } }

/-- 0x8021, but for the new nonce. -/
def ownerCommand (s : State) (d : List Byte) (flashOk : Bool) : State × Byte :=
  let s' := commandChange s d
  if !(commandFormed d) then (s, stRange)
  else if !(commandSigned s d) then (s, stSecurity)
  else if unsignable s'.sec.slots then (s, stRange)
  else securityArea s s' flashOk

/-! ### Debug unlock (R416 to R418, Table 16.9) -/

/-- The challenge on the test port. -/
def challengeBytes (s : State) : List Byte :=
  natBytes 8 Config.serial.toNat ++ (List.range 32).map (Config.challenge s.sec.challenge) ++ zeros 8

/-- What an answer unlocks as: 1 by the vendor key, 2 by an owner key. -/
def unlockCode (s : State) (key sig : List Byte) : Option Byte :=
  let dg := Config.shake512 key
  if !(Config.falconVerify key (challengeBytes s) sig) then none
  else if dg = Config.debugKeyDigest && s.sec.policy.getLsbD 0 then some 1
  else if s.sec.policy.getLsbD 1 && s.sec.slots.any (fun e => slotValid e.2 && slotDebug e.2 && decide (e.2.2 = dg)) then some 2
  else none

/-- The test port answers from step 3 of a cold boot onward, and in FAILED. -/
def testPortOpen (s : State) : Bool := s.power.on && (decide (s.boot.st ≠ .booting) || decide (3 ≤ s.boot.step.toNat))

/-- A block's CCLK restarts; a site that zeroises late in an unlock does so now (R392, Table 16.9). -/
def restartBlock (s : State) (f n : Nat) : State :=
  let v := getBlock s (16 * f + n)
  if v.restart then
    let s := flushTraces (setBlock s (16 * f + n) { v with stopped := false, restart := false })
    if s.sec.unlocking.isSome && !s.clk.lost then
      forAll (fun s t => modTile s t Tile.beginZero) (((blockSites f n).filterMap (tileAt s)).filter (tileLive s)) s
    else s
  else s

/-- Steps 1 to 3: CCLK is held, keys, identity and nonce are cleared, and every site whose clock can run zeroises, at OP4. -/
def clearSecrets (s : State) : State :=
  let s := allOp4 s
  let s := forAll (fun s t =>
    if (getBlock s (siteOf s t).block).stopped || s.clk.lost then s else modTile s t Tile.beginZero)
    (allTiles.filter (tileLive s)) s
  { s with
    sites := (mmap (fun _ (v : Site) => { v with bad := [], mem := [], slot := {}, zeroLeft := 0 }) s.sites).filter (fun e => decide (e.2 ≠ ({} : Site)))
    parts := mmap (fun _ P => { P with key := false }) s.parts
    dram := { s.dram with devKey := false }
    sec := { s.sec with identity := false, nonceHeld := false } }

/-- DEBUG_UNLOCK: a challenge is used up; an accepted answer starts the clearing. -/
def execDebugUnlock (key sig : List Byte) (s : State) : Out :=
  .next (
    if testPortOpen s && s.sec.unlocking.isNone then
      let s' := { s with sec := { s.sec with challenge := s.sec.challenge + 1 } }
      if s.sec.dbg ≠ 0 then s'
      else match unlockCode s key sig with
        | none => s'
        | some c => clearSecrets { s' with sec := { s'.sec with unlocking := some c } }
    else s)

/-- Every site reports clear: its zeroise has begun, and the report is that it has ended. -/
def allClear (s : State) : Bool :=
  s.tiles.all (fun e => !(tileLive s (XY.ofKey e.1)) || (e.2.mem.isEmpty && e.2.ecc.isEmpty))

/-- A partition is released and its owner told (R418). -/
def releaseForUnlock (s : State) (p : Nat) : State :=
  if isDefined s p then (releasePartition (vectorOwner s p) .fw (one p)).1 else s

/-- Step 4 and R418: the debug state, its measurement, CCLK runs again, and every partition is released. -/
def execUnlockComplete (s : State) : Out :=
  .next (match s.sec.unlocking with
    | none => s
    | some c =>
      if allClear s then
        let s := { s with sec := { s.sec with unlocking := none, dbg := c } }
        let s := addMeasure s 4 (BitVec.ofNat 512 c.toNat)
        let s := forAll (fun s (e : Nat × Tile) =>
          if e.2.zeroising then modTile s (XY.ofKey e.1) Tile.endZero else s) s.tiles s
        let s := { s with fields := mmap (fun f (D : Field) => { D with stopped := D.stopped && (s.clk.lost || heldByChange s f) }) s.fields }
        let s := flushTraces s
        answerWaiting (forAll releaseForUnlock (List.range 49) s)
      else s)

end Sys2Proof.Machine
end

