-- ==== Sys2Proof/Machine/Aceel.lean ====
section
/-!
DEFINITION. Aceel (R338 to R352): how a request arrives, is judged, performed and answered over the mailbox, MCTP and UDP;
whole and block reads and writes; subscriptions; the mailbox's register HC_MBOX.
-/
namespace Sys2Proof.Machine

/-- The request that a row with an entry of its own spells: a WRITE of a whole value. -/
def wholeWrite (w : WReq) (ix sub : Nat) (d : List Byte) : Req := ⟨w.ep, 2, 0, ix, sub, 0, w.tag, d.length, 0, w.flashOk, {}⟩

/-! ### Transports (R348, R349, R352) -/

/-- Payload limit (Table 13.6); the firmware's own requests have none. -/
def payloadLimit : Endpoint → Nat
  | .udp _ _ => 1216
  | .fw => 0x100000000
  | _ => 4080

/-- fe80::/10. -/
def linkLocalSource (a : Nat) : Bool := decide (a / 2 ^ 118 = 0x3FA)

/-- Operations whose row holds the request's payload (Table 13.5). -/
def carriesData (op : Nat) : Bool := decide (op = 2) || decide (op = 4)

/-- The transport brings this frame to the dictionary now: the mailbox holds it, BUSY and not answered; the port's MCTP
endpoint is assigned; the node is not silent (R350 to R352, Table 12.11). A mailbox's frame is its request buffer, 4,096 bytes. -/
def reaches (s : State) (h : Req) (data : List Byte) : Bool :=
  match h.ep with
  | .mailbox f =>
    let v := getFn s f
    v.busy && v.ready.isNone && !(s.aceel.waiting.any (fun w => decide (w.req.ep = h.ep))) && !s.boot.silent && managed s f.port
      && decide (padTo (16 + data.length) v.request = reqFrame h data)
      && (!(carriesData h.op) || decide (data.length = min h.len 4080))
  | .mctp p _ => (portOf s p).linkUp && decide ((portOf s p).eid ≠ 0) && !s.boot.silent && managed s p
  | _ => s.power.on && !s.boot.silent

/-- Bytes of the frame that the transport brings. -/
def frameLen (h : Req) (data : List Byte) : Nat := if carriesData h.op then min h.env.bytes (16 + data.length) else h.env.bytes

/-- Shorter than a header, or than 16 + LENGTH (R348). A LENGTH beyond the payload limit is R340's, and that of a READ_BLOCK counts
no payload (log entry 132). -/
def tooShort (h : Req) (data : List Byte) : Bool :=
  decide (frameLen h data < 16)
    || (decide (h.op ≠ 3) && decide (h.len ≤ payloadLimit h.ep) && decide (frameLen h data < 16 + h.len))

/-- The packets that came assemble to a message: type, vendor ID and selector before the frame. -/
def assembled (h : Req) (data : List Byte) : Bool :=
  match h.env.packets with
  | none => true
  | some l => assembles (4 + frameLen h data) l

/-- The transport discards the frame: not whole, an MCTP message that is none of the XW49's, a datagram from elsewhere or to
another port (R348, R351, R352). -/
def discards (h : Req) (data : List Byte) : Bool :=
  match h.ep with
  | .udp a _ => !(linkLocalSource a) || decide (h.env.hop ≠ 255) || decide (h.env.port ≠ 0xCE5A) || tooShort h data
  | .mctp _ _ => !h.env.vangoa || decide (h.env.selector ≠ 1) || !(assembled h data) || tooShort h data
  | _ => false

def isUdp : Endpoint → Bool
  | .udp _ _ => true
  | _ => false

/-- R340. -/
def malformed (h : Req) : Bool :=
  !(decide (1 ≤ h.op) && decide (h.op ≤ 5)) || decide (8 ≤ h.flags) || decide (h.status ≠ 0)
    || (decide (h.off ≠ 0) && !(blockOp h.op)) || decide (payloadLimit h.ep < h.len)

/-- The response given to the same request within the last second, among the endpoint's last 8 (R349). -/
def retryOf (s : State) (h : Req) (data : List Byte) : Option (List Byte) :=
  match h.ep with
  | .mailbox _ => none
  | .fw => none
  | _ => (s.aceel.answered.find? (fun a =>
      decide (a.req = reqKey h) && decide (a.payload = data) && decide (s.clk.gtc ≤ a.at_ + 1000000000))).map (·.answer)

/-- A ninth request of an MCTP or UDP endpoint while eight are not answered (R348). -/
def ninth (s : State) (ep : Endpoint) : Bool :=
  decide (ep ≠ .fw) && decide (8 ≤ (s.aceel.waiting.filter (fun w => decide (w.req.ep = ep))).length)

/-- What a WRITE that answers OK awaits, of the states before and after it: the context reset of 0x2011 or 0x6000:01 (R315, R458);
the zeroises of the fields that 0x2002 and 0x2004 give the partition and of those that 0x2003 takes from it, whose context reset the
field controllers confirm (R314, R316, R317, R344). -/
def awaited (s s' : State) (h : Req) (data : List Byte) : Option Waits :=
  let p := num data 0 1
  if !(carriesData h.op) then none
  else if h.ix = 0x2011 || (h.ix = 0x6000 && h.sub = 1) then (mfind s.ctxs p).map (fun q => ⟨h, data, some q, []⟩)
  else if h.ix = 0x2002 || h.ix = 0x2004 then some ⟨h, data, none, (getPart s' p).fields⟩
  else if h.ix = 0x2003 then some ⟨h, data, (getPart s p).ctx.map (fun _ => p), (getPart s p).fields⟩
  else none

/-- The answer to a request whose action has begun: OK waits for what it awaits to end (R344). -/
def answerOrWait (s : State) (h : Req) (data frame : List Byte) (w : Option Waits) : State :=
  match w with
  | none => answer s h data frame
  | some w =>
    if !(w.ended s) && frame = bareReply h stOk then { s with aceel := { s.aceel with waiting := s.aceel.waiting ++ [w] } }
    else answer s h data frame

/-- With a request comes whether the node sees a PLCA beacon (Table 13.9, log entry 181). -/
def seesBeacon (s : State) (h : Req) : State :=
  if h.env.beacon then { s with aceel := { s.aceel with beacon := some s.clk.gtc } } else s

/-- A request arrives. `big`: an image, whose blocks have been staged already. -/
def serveReq (s : State) (h : Req) (data : List Byte) (big : Bool) (act : State → State × List Byte) : State :=
  if !(reaches s h data) then s
  else if discards h data then (if isUdp h.ep then addTotal s 0x1100 4 1 else s)
  else
    let s := seesBeacon (if isUdp h.ep then addTotal s 0x1100 3 1 else s) h
    match retryOf s h data with
    | some frame => deliverReply s h.ep frame
    | none =>
      if ninth s h.ep then answer s h data (bareReply h stBusy)
      else if malformed h && !big then answer s h data (bareReply h stRange)
      else
        let x := act s
        answerWaiting (answerOrWait x.1 h data x.2 (awaited s x.1 h data))

/-! ### Reads (R338, R340, R341) -/

/-- Whether a record of the scale table gives no stable copy in four attempts (R172), where the row does not say: a free
value while the partition runs. -/
def unstableNow (s : State) (ix sub : Nat) : List Nat :=
  if ix = 0x7802 && 0 < sub && decide ((getPart s (sub - 1)).st = .running) && decide (Config.freeNat s.free % 2 = 1) then [0]
  else []

/-- A read draws a free value where the entry has one (R172). -/
def drawRead (s : State) (ix : Nat) : State :=
  if ix = 0x7802 then { s with free := s.free + 1 } else s

/-- The value of an entry for an endpoint, judged. -/
def readFor (s : State) (ep : Endpoint) (ix sub : Nat) (block : Bool) (unstable : List Nat) : Except Byte (List Byte) :=
  match judge s ep ix sub block .read with
  | .error e => .error e
  | .ok _ => readEntry s ix sub unstable

/-- The size of a readable entry: that of 0x7802 is what its descriptor gives. -/
def entrySize (s : State) (sub : Nat) (i : Info) : Nat :=
  if i.size = 0 then 128 * scCount (getPart s (sub - 1)).cfg.scale else i.size

/-- R172's NOT_READY. -/
def notValid : Except Byte (List Byte) → Bool
  | .error e => decide (e = stNotReady)
  | .ok _ => false

/-- READ: an entry beyond the transport's limit answers RANGE with its size; 0x7802 first NOT_READY without a valid descriptor
(R172). -/
def doRead (s : State) (h : Req) (unstable : List Nat) : State × List Byte :=
  match judge s h.ep h.ix h.sub false .read with
  | .error e => (s, bareReply h e)
  | .ok i =>
    let n := entrySize s h.sub i
    match readEntry s h.ix h.sub unstable with
    | .error e =>
      if payloadLimit h.ep < n && e ≠ stNotReady then (s, reply h stRange n []) else (drawRead s h.ix, bareReply h e)
    | .ok d => if payloadLimit h.ep < n then (s, reply h stRange n []) else (drawRead s h.ix, wholeReply h d)

/-- ACEEL_READ; an undefined OP is answered here as well. -/
def execAceelRead (h : Req) (s : State) : Out :=
  .next (
    if 2 ≤ h.op && h.op ≤ 5 then s
    else serveReq s h [] false (fun s => doRead s h (unstableNow s h.ix h.sub)))

/-- SCALE_TABLE_SNAPSHOT: a READ of 0x7802; `unstable` lists the records that gave no stable copy. -/
def execScaleTableSnapshot (w : WReq) (sub : Nat) (unstable : List Nat) (s : State) : Out :=
  let h : Req := ⟨w.ep, 1, 0, 0x7802, sub, 0, w.tag, 0, 0, w.flashOk, {}⟩
  .next (serveReq s h [] false (fun s => doRead s h unstable))

/-! ### Blocks (R341, R342) -/

def ofEndpoint (ep : Endpoint) (l : List (Endpoint × Snapshot)) : Option Snapshot :=
  (l.find? (fun x => decide (x.1 = ep))).map (·.2)
def dropEndpoint (ep : Endpoint) (l : List (Endpoint × Snapshot)) : List (Endpoint × Snapshot) :=
  l.filter (fun x => decide (x.1 ≠ ep))

def Snapshot.matches (v : Snapshot) (h : Req) : Bool := decide (v.tag = h.tag) && decide (v.ix = h.ix) && decide (v.sub = h.sub)

def putSnap (s : State) (ep : Endpoint) (v : Snapshot) : State :=
  { s with aceel := { s.aceel with snaps := (ep, v) :: dropEndpoint ep s.aceel.snaps } }
def setStage (s : State) (ep : Endpoint) (v : Option Snapshot) : State :=
  let l := dropEndpoint ep s.aceel.stages
  { s with aceel := { s.aceel with stages := match v with
    | none => l
    | some x => (ep, x) :: l } }

/-- LENGTH bytes from OFFSET of a snapshot. -/
def blockReply (h : Req) (d : List Byte) : List Byte :=
  if d.length < h.off + h.len then bareReply h stRange else wholeReply h ((d.drop h.off).take h.len)

def doReadBlock (s : State) (h : Req) : State × List Byte :=
  match judge s h.ep h.ix h.sub true .read with
  | .error e => (s, bareReply h e)
  | .ok _ =>
    if h.off = 0 then
      match readEntry s h.ix h.sub (unstableNow s h.ix h.sub) with
      | .error e => (drawRead s h.ix, bareReply h e)
      | .ok d =>
        if d.length < h.len then (s, bareReply h stRange)
        else (putSnap (drawRead s h.ix) h.ep ⟨h.tag, h.ix, h.sub, d⟩, blockReply h d)
    else match ofEndpoint h.ep s.aceel.snaps with
      | none => (s, bareReply h stNotReady)
      | some v => if v.matches h then (s, blockReply h v.bytes) else (s, bareReply h stNotReady)

/-- READ_BLOCK. -/
def execReadBlock (h : Req) (s : State) : Out :=
  .next (if h.op = 3 then serveReq s h [] false (fun s => doReadBlock s h) else s)

/-- SNAPSHOT_EXPIRY: 10 s after its last use. -/
def execSnapshotExpiry (ep : Endpoint) (s : State) : Out :=
  .next { s with aceel := { s.aceel with snaps := dropEndpoint ep s.aceel.snaps } }

/-- STAGING_EXPIRY. -/
def execStagingExpiry (ep : Endpoint) (s : State) : Out := .next (setStage s ep none)

/-! ### Writes -/

/-- The effect of a WRITE whose checks 1 to 6 have passed: the entry's own rules, and the saving of a saved entry. -/
def performWrite (s : State) (ep : Endpoint) (i : Info) (ix sub : Nat) (d : List Byte) (flashOk : Bool) : State × Byte :=
  if ix = 0x1800 then restoreDefaults s d flashOk
  else if ix = 0x8011 then writeCommitSvn s d
  else if ix = 0x8012 then writeImage s d flashOk
  else if ix = 0x8020 then writeSlot s sub d flashOk
  else if ix = 0x8021 then ownerCommand s d flashOk
  else if ix = 0x8023 then writeDebugPolicy s d flashOk
  else if i.saved then
    let x := writeSavedEntry s ix sub d
    if x.2 = stOk then saveEntry x.1 ix sub d flashOk else x
  else writePlainEntry s ep ix sub d

/-- A WRITE: the checks of R338; SECURITY while an unlock clears secrets (Table 16.9); the effect. -/
def judgedWrite (s : State) (ep : Endpoint) (ix sub : Nat) (d : List Byte) (block flashOk : Bool) : State × Byte :=
  match judge s ep ix sub block (.write d) with
  | .error e => (s, e)
  | .ok i => if s.sec.unlocking.isSome then (s, stSecurity) else performWrite s ep i ix sub d flashOk

/-- Every write to 0x8021 replaces the nonce, whatever its status (R415). -/
def doWrite (s : State) (ep : Endpoint) (ix sub : Nat) (d : List Byte) (block flashOk : Bool) : State × Byte :=
  let x := judgedWrite s ep ix sub d block flashOk
  if ix = 0x8021 && sub = 0 then (drawNonce x.1, x.2) else x

/-- A WRITE is answered with its status. -/
def writeReply (s : State) (h : Req) (d : List Byte) (block : Bool) : State × List Byte :=
  let x := doWrite s h.ep h.ix h.sub d block h.flashOk
  (x.1, bareReply h x.2)

/-- ACEEL_WRITE: the payload is LENGTH bytes. -/
def execAceelWrite (h : Req) (data : List Byte) (s : State) : Out :=
  .next (if h.op = 2 then serveReq s h data false (fun s => writeReply s h (data.take h.len) false) else s)

/-- The write that a row with an entry of its own makes. -/
def writeRow (w : WReq) (ix sub : Nat) (d : List Byte) (s : State) : Out :=
  let h := wholeWrite w ix sub d
  .next (serveReq s h d false (fun s => writeReply s h d false))

/-- Checks 1 to 5 of a block that is staged: the entry may be written in blocks by this endpoint. -/
def judgeBlock (s : State) (h : Req) : Option Byte :=
  match (shapeOf h.ix).bind (fun v => v.entry h.sub) with
  | none => (match judge s h.ep h.ix h.sub true .read with
    | .error e => some e
    | .ok _ => none)
  | some i => match judge s h.ep h.ix h.sub true (.write (zeros (if h.ix = 0x8012 then 0 else i.size))) with
    | .error e => some e
    | .ok _ => none

/-- WRITE_BLOCK: OFFSET 0 begins a staging; LAST performs one WRITE of the staged bytes. -/
def doWriteBlock (s : State) (h : Req) (d : List Byte) : State × List Byte :=
  match judgeBlock s h with
  | some e => (s, bareReply h e)
  | none =>
    let so_far : Option (List Byte) :=
      if h.off = 0 then some []
      else match ofEndpoint h.ep s.aceel.stages with
        | none => none
        | some v => if v.matches h && decide (h.off = v.bytes.length) then some v.bytes else none
    match so_far with
    | none => (setStage s h.ep none, bareReply h stRange)
    | some l =>
      if h.flags.testBit 0 then writeReply (setStage s h.ep none) h (l ++ d) true
      else (setStage s h.ep (some ⟨h.tag, h.ix, h.sub, l ++ d⟩), bareReply h stOk)

/-- WRITE_BLOCK. -/
def execWriteBlock (h : Req) (data : List Byte) (s : State) : Out :=
  .next (if h.op = 4 then serveReq s h data false (fun s => doWriteBlock s h (data.take h.len)) else s)

/-! ### Subscriptions (R345 to R347) -/

def Subscription.is (v : Subscription) (ep : Endpoint) (ix sub : Nat) : Bool :=
  decide (v.ep = ep) && decide (v.ix = ix) && decide (v.sub = sub)

def setSubs (s : State) (l : List Subscription) : State := { s with aceel := { s.aceel with subs := l } }

/-- Stored period: at least 10 ms, 0 on change. -/
def storedPeriod (p : Nat) : Nat := if p = 0 then 0 else Nat.max 10 p

def doSubscribe (s : State) (h : Req) (period : Nat) : State × List Byte :=
  let others := s.aceel.subs.filter (fun v => !(v.is h.ep h.ix h.sub))
  match judge s h.ep h.ix h.sub false .read with
  | .error e => (s, bareReply h e)
  | .ok i =>
    if h.flags.testBit 1 then (setSubs s others, bareReply h stOk)
    else if notValid (readEntry s h.ix h.sub []) then (s, bareReply h stNotReady)
    else if payloadLimit h.ep < entrySize s h.sub i || 3600000 < period then (s, bareReply h stRange)
    else if 256 ≤ others.length || 16 ≤ (others.filter (fun v => decide (v.ep = h.ep))).length then (s, bareReply h stBusy)
    else match readEntry s h.ix h.sub (unstableNow s h.ix h.sub) with
      | .error e => (drawRead s h.ix, bareReply h e)
      | .ok d =>
        (setSubs (drawRead s h.ix) (others ++ [⟨h.ep, h.ix, h.sub, h.tag, storedPeriod period, d, none⟩]), wholeReply h d)

/-- SUBSCRIBE: the payload is PERIOD, four bytes, else RANGE. -/
def execSubscribe (h : Req) (period : Word32) (s : State) : Out :=
  let data := natBytes 4 period.toNat
  .next (
    if h.op = 5 then
      serveReq s h (data.take h.len) false (fun s =>
        if h.len = 4 || h.flags.testBit 1 then doSubscribe s h period.toNat else (s, bareReply h stRange))
    else s)

/-- A NOTIFY frame. -/
def notifyFrame (v : Subscription) (d : List Byte) (coalesced : Bool) : List Byte :=
  aceelHeader 0x86 (if coalesced then 4 else 0) v.ix v.sub 0 v.tag d.length 0 ++ d

/-- Send a subscription's value: to the mailbox it waits for the response buffer, where a later one replaces it and sets
COALESCED; elsewhere it leaves at once. -/
def notifyNow (s : State) (v : Subscription) (d : List Byte) : State :=
  let upd (w : Subscription) : State := setSubs s (s.aceel.subs.map (fun x => if x.is v.ep v.ix v.sub then w else x))
  match v.ep with
  | .mailbox _ =>
    let c := v.undelivered.isSome
    upd { v with last := d, undelivered := some (notifyFrame v d c, c) }
  | _ => emit (upd { v with last := d }) (sent v.ep (notifyFrame v d false))

/-- NOTIFY: a period has passed, or the value has changed; nothing is sent while the dictionary answers NOT_READY for the
entry. -/
def execNotify (ep : Endpoint) (ix sub : Nat) (s : State) : Out :=
  .next (match s.aceel.subs.find? (fun v => v.is ep ix sub) with
    | none => s
    | some v => match readFor s ep ix sub false (unstableNow s ix sub) with
      | .error _ => s
      | .ok d =>
        if s.boot.silent || (decide (v.period = 0) && decide (v.last = d)) then s else notifyNow (drawRead s ix) v d)

/-- At READY, one NOTIFY for every on-change subscription (R347). -/
def notifyReady (s : State) : State :=
  forAll (fun s (v : Subscription) =>
    match readFor s v.ep v.ix v.sub false [] with
    | .error _ => s
    | .ok d => notifyNow s v d) (s.aceel.subs.filter (fun v => decide (v.period = 0))) s

/-! ### HC_MBOX (R350, Table 13.7) -/

/-- Registers of a function that is there. -/
def mboxOpen (s : State) (f : Fn) : Bool := (portOf s f.port).linkUp && fnExists s f

/-- HC_MBOX_GO: submits the frame in the request buffer; ignored and counted unless BUSY, DONE and NOTIFY are all 0. -/
def execHcMboxGo (f : Fn) (frame : List Byte) (s : State) : Out :=
  .next (
    if !(mboxOpen s f) then s
    else
      let v := getFn s f
      if v.busy || v.done || v.notify then addTotal s 0x1100 7 1
      else setFn s f { v with busy := true, request := frame.take 4096 })

/-- HC_MBOX_DONE: the response buffer is free. -/
def execHcMboxDone (f : Fn) (s : State) : Out :=
  .next (if mboxOpen s f then setFn s f { (getFn s f) with done := false } else s)

/-- HC_MBOX_NOTIFY. -/
def execHcMboxNotify (f : Fn) (s : State) : Out :=
  .next (if mboxOpen s f then setFn s f { (getFn s f) with notify := false } else s)

/-- TAG of a frame. -/
def frameTag (l : List Byte) : Half := BitVec.ofNat 16 (num l 6 2)

/-- MAILBOX_RESPONSE: the response enters the buffer, or, while BUSY, DONE and NOTIFY are all 0, a pending NOTIFY; vector 2
is raised. -/
def execMailboxResponse (f : Fn) (s : State) : Out :=
  .next (
    let v := getFn s f
    if !(mboxOpen s f) then s
    else match v.ready with
      | some l => vectorOne (setFn s f { v with
          busy := false, done := true, tag := frameTag l, response := l, ready := none }) f 2
      | none =>
        match s.aceel.subs.find? (fun w => decide (w.ep = .mailbox f) && w.undelivered.isSome) with
        | none => s
        | some w => match w.undelivered with
          | none => s
          | some u =>
            if v.busy || v.done || v.notify then s
            else
              let s := setSubs s (s.aceel.subs.map (fun x => if x.is w.ep w.ix w.sub then { x with undelivered := none } else x))
              vectorOne (setFn s f { v with notify := true, tag := frameTag u.1, response := u.1 }) f 2)

end Sys2Proof.Machine
end

