-- ==== Sys2Proof/Machine/Attest.lean ====
section
/-!
DEFINITION. MCTP control commands (R351) and the SPDM responder (R410 to R413). The byte layouts are those of DSP0236 and
DSP0274 (log entry 19); an SPDM answer that those lay out and the spec does not repeat is Config.spdmAnswer of what it
carries.
-/
namespace Sys2Proof.Machine

/-! ### MCTP control (R351) -/

/-- The port's PF answers MCTP: enumeration is over, and no full reset has silenced it. -/
def mctpUp (s : State) (p : HPort) : Bool := (portOf s p).linkUp && !s.boot.silent && managed s p

/-- The packets of a message assemble: in order, the first and the last so marked, each of 64 bytes but the last (R351). -/
def mctpWhole (m : MctpIn) : Bool :=
  match m.packets with
  | none => true
  | some l => assembles (l.map (·.bytes)).sum l

/-- A control request arrives: whole, and at a port that answers. -/
def controlAsks (s : State) (m : MctpIn) : Bool := mctpWhole m && mctpUp s m.port

/-- An answer in packets: message type 0, the request's instance ID (Rq and D zero), command code, completion code, data
(R351, DSP0236). -/
def control (s : State) (m : MctpIn) (cmd cc : Nat) (d : List Byte) : State :=
  emit s (.mctp m.port (mctpPackets (one 0x00 ++ one (m.inst % 32) ++ one cmd ++ one cc ++ d)))

/-- The subscriptions of a port's MCTP endpoints are removed (R347). -/
def dropMctp (s : State) (p : HPort) : State :=
  let mine (e : Endpoint) : Bool := match e with
    | .mctp q _ => decide (q = p)
    | _ => false
  setSubs s (s.aceel.subs.filter (fun v => !(mine v.ep)))

/-- SET_ENDPOINT_ID: 0 and 0xFF are no endpoint ids (completion code 2). -/
def execSetEndpointId (m : MctpIn) (eid : Byte) (s : State) : Out :=
  .next (
    if !(controlAsks s m) then s
    else if eid = 0 || eid = 0xFF then control s m 0x01 0x02 []
    else
      let s := if (portOf s m.port).eid = eid then s else dropMctp s m.port
      control (modPort s m.port (fun P => { P with eid := eid })) m 0x01 0x00 [0, eid, 0])

/-- GET_ENDPOINT_ID. -/
def execGetEndpointId (m : MctpIn) (s : State) : Out :=
  .next (if controlAsks s m then control s m 0x02 0x00 [(portOf s m.port).eid, 0, 0] else s)

/-- GET_MCTP_VERSION_SUPPORT: one entry, whose value the spec does not give. -/
def execGetMctpVersionSupport (m : MctpIn) (s : State) : Out :=
  .next (
    if controlAsks s m then
      let x := freeVal s
      control x.2 m 0x04 0x00 (one 1 ++ natBytes 4 x.1)
    else s)

/-- GET_MESSAGE_TYPE_SUPPORT: SPDM and vendor defined PCI. -/
def execGetMessageTypeSupport (m : MctpIn) (s : State) : Out :=
  .next (if controlAsks s m then control s m 0x05 0x00 [2, 0x05, 0x7E] else s)

/-- GET_VENDOR_DEFINED_MESSAGE_SUPPORT: Vangoa's PCI vendor id, most significant byte first; its command set is not given. -/
def execGetVendorDefinedMessageSupport (m : MctpIn) (s : State) : Out :=
  .next (
    if controlAsks s m then
      let x := freeVal s
      control x.2 m 0x06 0x00 (one 0xFF ++ one 0 ++ beBytes 2 Config.vendorId.toNat ++ natBytes 2 x.1)
    else s)

/-! ### SPDM (R413) -/

/-- SPDM messages are answered once an endpoint id is assigned. -/
def spdmUp (s : State) (p : HPort) : Bool := mctpUp s p && decide ((portOf s p).eid ≠ 0)

/-- An SPDM request arrives, whole. -/
def spdmAsks (s : State) (m : MctpIn) : Bool := mctpWhole m && spdmUp s m.port

/-- An SPDM answer as an MCTP message of type 0x05, in packets (R351, DSP0275). -/
def spdmPackets (l : List Byte) : List (List Byte) := mctpPackets (one 0x05 ++ l)
def sendSpdm (s : State) (p : HPort) (l : List Byte) : State := emit s (.spdm p (spdmPackets l))

/-- ERROR with a code: 1 InvalidRequest, 3 Busy, 4 UnexpectedRequest, 5 Unspecified. -/
def spdmError (s : State) (p : HPort) (code : Nat) : State := sendSpdm s p [0x13, 0x7F, BitVec.ofNat 8 code, 0]

/-- GET_VERSION: 1.3 only; a negotiation starts over. -/
def execGetVersion (m : MctpIn) (s : State) : Out :=
  .next (
    if spdmAsks s m then
      sendSpdm (modPort s m.port (fun P => { P with spdm := false })) m.port [0x10, 0x04, 0, 0, 0, 1, 0x00, 0x13]
    else s)

/-- GET_CAPABILITIES: CERT, CHAL, MEAS with signatures and MEAS_FRESH. -/
def execGetCapabilities (m : MctpIn) (s : State) : Out :=
  .next (if spdmAsks s m then sendSpdm s m.port (Config.spdmAnswer 0x61 [0x36]) else s)

/-- NEGOTIATE_ALGORITHMS: Falcon-1024 and SHA3-512. -/
def execNegotiateAlgorithms (m : MctpIn) (s : State) : Out :=
  .next (
    if spdmAsks s m then
      sendSpdm (modPort s m.port (fun P => { P with spdm := true })) m.port (Config.spdmAnswer 0x63 (natBytes 2 Config.vendorId.toNat))
    else s)

def chainBytes : List Byte := (List.range 16384).map Config.certChain

/-- A request after the negotiation. -/
def negotiated (s : State) (m : MctpIn) (act : State) : State :=
  if !(spdmAsks s m) then s else if !(portOf s m.port).spdm then spdmError s m.port 4 else act

/-- What the unsealed identity key signs (R411). -/
def identitySign (l : List Byte) : List Byte := Config.identitySign (Config.unseal Config.deviceSecret Config.sealedIdentity) l

/-- The identity key signs: Busy until it is unsealed, Unspecified after a debug unlock. -/
def withKey (s : State) (p : HPort) (act : State) : State :=
  if s.sec.dbg ≠ 0 || s.sec.unlocking.isSome then spdmError s p 5 else if !s.sec.identity then spdmError s p 3 else act

/-- GET_DIGESTS: slot 0. -/
def execGetDigests (m : MctpIn) (s : State) : Out :=
  .next (negotiated s m (sendSpdm s m.port ([0x13, 0x01, 0, 1] ++ natBytes 64 (Config.sha3 chainBytes).toNat)))

/-- GET_CERTIFICATE: a portion of the chain of slot 0 and what remains. -/
def execGetCertificate (m : MctpIn) (slot off len : Nat) (s : State) : Out :=
  .next (negotiated s m (
    if slot ≠ 0 || 16384 ≤ off then spdmError s m.port 1
    else
      let l := (chainBytes.drop off).take len
      sendSpdm s m.port ([0x13, 0x02, 0, 0] ++ natBytes 2 l.length ++ natBytes 2 (16384 - off - l.length) ++ l)))

/-- The header of the running image: as written, or as delivered. -/
def runningHeader (s : State) : List Byte :=
  let b := decide (s.sec.booted = 1)
  (if b then s.sec.headerB else s.sec.headerA).getD ((List.range 4096).map (Config.imageHeader b))

/-- A measurement's current value (R412): a digest, or the raw value. -/
def measurement (s : State) (ix : Nat) : List Byte :=
  if ix = 1 then natBytes 64 (Config.sha3 (runningHeader s ++ ((runningHeader s).drop 1920).take 640)).toNat
  else if ix = 2 then natBytes 4 s.sec.ochre.toNat
  else if ix = 3 then natBytes 64 (Config.sha3 (cloakList s)).toNat
  else [s.sec.dbg]

def allMeasurements (s : State) : List Byte := [1, 2, 3, 4].flatMap (measurement s)

/-- CHALLENGE: signed over the requester's nonce and the measurements. -/
def execChallenge (m : MctpIn) (slot : Nat) (nonce : List Byte) (s : State) : Out :=
  .next (negotiated s m (
    if slot ≠ 0 then spdmError s m.port 1
    else withKey s m.port (
      let l := nonce ++ allMeasurements s
      sendSpdm s m.port (Config.spdmAnswer 0x03 (l ++ identitySign l)))))

/-- GET_MEASUREMENTS: one index of 1 to 4, all with 0xFF, signed. -/
def execGetMeasurements (m : MctpIn) (ix : Nat) (nonce : List Byte) (s : State) : Out :=
  .next (negotiated s m (
    if !(decide (1 ≤ ix) && decide (ix ≤ 4)) && ix ≠ 0xFF then spdmError s m.port 1
    else withKey s m.port (
      let l := nonce ++ (if ix = 0xFF then allMeasurements s else measurement s ix)
      sendSpdm s m.port (Config.spdmAnswer 0x60 (l ++ identitySign l)))))

end Sys2Proof.Machine
end

