-- ==== Sys2Proof/Machine/Clocks.lean ====
section
/-!
DEFINITION. Clocks and time (R358 to R361, R367 to R369, R375, R376): references, operating-point changes, sync pulses. How long a
change takes is not modelled: its start, its lock and its end are commands.
-/
namespace Sys2Proof.Machine

/-! ### References (R358 to R361) -/

def setRefGood (s : State) (r : RefClk) (b : Bool) : State :=
  match r with
  | .a => { s with clk := { s.clk with goodA := b } }
  | .b => { s with clk := { s.clk with goodB := b } }

def otherRef : RefClk → RefClk
  | .a => .b
  | .b => .a

/-- Table 14.1: CCLK stops everywhere, the LPDDR6 goes into self-refresh and the GTC is unsynchronised, until a full reset. -/
def loseClocks (s : State) : State :=
  let s := { s with
    clk := { s.clk with active := none, lost := true, holdover := true, sync := 0xFF }
    dram := { s.dram with selfRefresh := true } }
  raise s (blankEvent clRefclk sevFatal meMonitor acNone) 0

/-- REFERENCE_LOSS: a reference is judged lost; the loss of the active one moves every PLL to the other, if that is good. Where none is
active, before a boot has locked to one or after the loss of both, the loss of the last good one is raised as well (R361). -/
def execReferenceLoss (which : RefClk) (s : State) : Out :=
  .next (
    if !s.power.on then s
    else
      let was := refGood s which
      let s := setRefGood s which false
      if s.clk.active = some which then
        if refGood s (otherRef which) then switchRef s (otherRef which) else loseClocks s
      else if s.clk.active.isNone && was && !(refGood s (otherRef which)) then
        raise s (blankEvent clRefclk sevFatal meMonitor acNone) 0
      else s)

/-- REFERENCE_RETURN: the XW49 does not revert to it (R360). -/
def execReferenceReturn (which : RefClk) (s : State) : Out := .next (if s.power.on then setRefGood s which true else s)

/-! ### Operating points (R367 to R369) -/

def liveFields (s : State) (p : Nat) : List Nat := (getPart s p).fields.filter (fieldAlive s)

/-- OPERATING_POINT_CCLK_STOP: CCLK stops in every field of the partition at one instant. An unlock holds it already, at OP4 (Table
16.9). -/
def execOperatingPointCclkStop (p : PartId) (s : State) : Out :=
  .next (
    let P := getPart s p
    if s.sec.unlocking.isSome then s
    else match P.change with
    | some (.decided t) =>
      let s := forAll (fun s f => modField s f (fun D => { D with stopped := true, pllC := false, retried := false })) (liveFields s p) s
      setPart s p { P with change := some (.stopped t) }
    | _ => s)

/-- CCLK restarts in every field at a point, the field cycle counts at 0; it stays held while an unlock clears secrets (Table
16.9). The first cycle has c = 0, so the issue caps decided meanwhile take effect (R386) and blocks cool enough restart
(R369, R392). -/
def restartAt (s : State) (p op : Nat) : State :=
  let hold := s.sec.unlocking.isSome
  let s := forAll (fun s f => modField s f (fun D => { D with
    op := op, stopped := hold, pllC := true, cyc := 0, half := false, retried := false })) (liveFields s p) s
  let s := modPart s p (fun P => { P with op := op, change := none })
  if hold then s
  else flushTraces (forAll (fun s f => forAll (fun s n => restartBlock s f n) (List.range 16) (takeCap s f)) (liveFields s p) s)

/-- The most recent request that arrived during the change is applied after it (R369); an up-change waits while a field of the
partition is throttled (R390). -/
def applyPending (s : State) (p : Nat) : State :=
  let P := getPart s p
  match P.pendPoint with
  | none => s
  | some t =>
    let s := setPart s p { P with pendPoint := none }
    if t < P.op && !(coolPart s P) then s else requestPoint s p t

/-- CCLK_RESTART: PLL-C is confirmed locked in every field. -/
def execCclkRestart (p : PartId) (s : State) : Out :=
  .next (match (getPart s p).change with
    | some (.stopped t) => if s.clk.lost then s else applyPending (restartAt s p t) p
    | _ => s)

/-- The second failure of PLL-C: OP4 in every field, the ceiling OP4, and a clock event. -/
def fallToOp4 (s : State) (p f : Nat) : State :=
  let s := modPart (restartAt s p 4) p (fun P => { P with ceiling := 4, pendPoint := none })
  raise s ((blankEvent clClock sevRecoverable meMonitor acNone).atField s f) f

/-- PLL_LOCK_TIMEOUT of a field: it retries once (R369). -/
def execPllLockTimeout (p : PartId) (f : Nat) (s : State) : Out :=
  .next (match (getPart s p).change with
    | some (.stopped _) =>
      if s.clk.lost || !((liveFields s p).contains f) then s
      else if (getField s f).retried then fallToOp4 s p f
      else modField s f (fun D => { D with retried := true })
    | _ => s)

/-! ### Sync pulses (R375, R376) -/

/-- The field that sends the pulses. -/
def syncField (s : State) : Option Nat := if s.clk.sync = 0 then some 24 else if s.clk.sync = 1 then some 18 else none

/-- A field compares its copy, d ns ahead of the pulse, and aligns (R375). A copy more than 4 ns behind steps forward to the
pulse; one more than 4 ns ahead holds its visible count until time reaches it; a smaller difference is removed by the
fraction. No copy steps backward: what it shows never falls below what it showed. -/
def alignField (s : State) (x : Nat × Int) : State :=
  if !(fieldAlive s x.1) then s
  else
    let s := modField s x.1 (fun D =>
      let d := max D.gtcOff (if x.2 < -4 then 0 else x.2)
      { D with gtcOff := d, gtcHeld := decide (4 < d) })
    if 4 < x.2.natAbs then
      raise (addTotal s 0x4000 6 1) ((blankEvent clFieldTime sevRecoverable meMonitor acNone).atField s x.1) x.1
    else s

/-- SYNC_PULSE: `seen` is how far each field's copy is found from the pulse. -/
def execSyncPulse (seen : List (Nat × Int)) (s : State) : Out :=
  .next (match syncField s with
    | none => s
    | some f => if fieldAlive s f && s.power.on && s.boot.resetting ≠ some .full then forAll alignField seen s else s)

/-- SYNC_PULSE_MISSING: F18 sends from now on, or each field runs on its own copy. -/
def execSyncPulseMissing (s : State) : Out :=
  .next (
    let takeSource (v : Byte) : State :=
      let s := { s with clk := { s.clk with sync := v } }
      raise s (blankEvent clFieldTime sevRecoverable meMonitor acNone) 0
    if !s.power.on || s.boot.resetting = some .full then s
    else if s.clk.sync = 0 then takeSource (if fieldAlive s 18 then 1 else 0xFF)
    else if s.clk.sync = 1 then takeSource 0xFF
    else s)

end Sys2Proof.Machine
end

