-- ==== Sys2Proof/Machine/Power.lean ====
section
/-!
DEFINITION. Power and thermal control (R380 to R395): the governor, energy, droop, the thermal ladder, the failures of the
delivery chain. What is measured is an operand.
-/
namespace Sys2Proof.Machine

/-! ### Loss of 72 V (Table 8.8, R379, R380, R474) -/

/-- What flash and fuses keep. -/
def keptSites (m : SMap Site) : SMap Site :=
  (mmap (fun _ (v : Site) => ({ fmax := v.fmax, failed := v.failed, binCloaked := v.binCloaked, routerBad := v.routerBad } : Site)) m).filter
    (fun e => decide (e.2 ≠ {}))

def keptRows (m : SMap Row) : SMap Row :=
  (mmap (fun _ (w : Row) => (if w.kind = .spare then {} else { e := w.e, kind := w.kind } : Row)) m).filter (fun e => decide (e.2 ≠ {}))

def keptFields (m : SMap Field) : SMap Field :=
  (mmap (fun _ (D : Field) => ({ defect := D.defect, trim := D.trim } : Field)) m).filter (fun e => decide (e.2 ≠ {}))

/-- The repair map: Hem substitutions, dead links and exhausted bundles (R19, R22). -/
def keptBundles (m : SMap Bundle) : SMap Bundle :=
  (mmap (fun _ (v : Bundle) => { v with lane := 0 }) m).filter (fun e => decide (e.2 ≠ {}))

def keptSecurity (c : Security) : Security :=
  { minSvn := c.minSvn, imageA := c.imageA, imageB := c.imageB, headerA := c.headerA, headerB := c.headerB
    woadA := c.woadA, woadB := c.woadB, slots := c.slots, policy := c.policy, nonce := c.nonce, challenge := c.challenge }

/-- Every rail goes off: only flash, fuses, the pins of the tray and the model's own fields remain. -/
def powerOff (s : State) : State :=
  { pending := s.pending
    sites := keptSites s.sites
    rows := keptRows s.rows
    fields := keptFields s.fields
    bundles := keptBundles s.bundles
    saved := { s.saved with live := [] }
    boot := { confirmed := s.boot.confirmed }
    sec := keptSecurity s.sec
    pins := { pwrEn := s.pins.pwrEn, perstA := s.pins.perstA, perstB := s.pins.perstB, forceOffN := s.pins.forceOffN
              faultLatched := s.pins.faultLatched, thermtripN := s.pins.thermtripN || !s.pins.pwrEn }
    power := { hours := s.power.hours }
    out := s.out
    free := s.free
    turn := s.turn }

/-- INPUT_FAULT: every rail goes off, every field is at OFF_INPUT (Table 15.3), and the fault latches (R474). -/
def inputFault (s : State) : State :=
  let s := powerOff { s with pins := { s.pins with faultLatched := true } }
  forAll (fun s f => modField s f (fun D => { D with power := .offInput })) (List.range 49) s

/-! ### A boot that begins, begins again or fails (Table 16.1, R401) -/

/-- The boot or the reset ends in FAILED: tiles stay stopped, and the dictionary answers early indexes only (R401). -/
def failDevice (s : State) (step : Byte) : State :=
  { s with boot := { s.boot with st := .failed, step := step, silent := false } }

/-- Power enable: everything but flash, fuses and pins is at its default; the copies and references are as found, and step 1
begins. A copy of the maps or of the saved dictionary that fails its CRC is not valid. Without a copy of the maps that is
marked confirmed the boot is first-ever and builds them afresh (R400); a copy that is valid but not confirmed still holds off
the fields that it records (R384). -/
def powerEnable (s : State) (facts : BootFacts) : State :=
  let first := !s.boot.confirmed || decide (facts.mapsValid = 0)
  let s := powerOff s
  { s with
    sites := if first then [] else s.sites
    rows := if first then [] else s.rows
    bundles := if first then [] else s.bundles
    fields := if facts.mapsValid = 0 then [] else s.fields
    saved := { s.saved with valid0 := facts.copiesValid.getLsbD 0, valid1 := facts.copiesValid.getLsbD 1, maps := facts.mapsValid }
    clk := { active := none, goodA := facts.refA, goodB := facts.refB }
    power := { s.power with on := true }
    boot := { s.boot with step := 1, facts := some facts, firstEver := first, confirmed := s.boot.confirmed && !first }
    pins := { s.pins with pwrEn := true, forceOffN := true } }

/-- The boot master's field dies before READY (R401): the first time every field loses its power, that field is held off for
this boot, and the boot begins again at step 1; the second time the boot has failed. 72 V stays applied: the cuffs keep their ports,
the event log its records, the references are judged as they are, and an unlock stands (R361, R417, R418). -/
def bootMasterDies (s : State) (m : Nat) : State :=
  if s.boot.deaths ≠ 0 then failDevice s s.boot.step
  else match s.boot.facts with
    | none => failDevice s s.boot.step
    | some facts =>
      let t := powerEnable s facts
      setAlert { t with
        fields := keptFields s.fields, portA := s.portA, portB := s.portB
        events := { s.events with lastLogged := [] }
        totals := s.totals
        clk := { t.clk with goodA := s.clk.goodA, goodB := s.clk.goodB, lost := s.clk.lost, holdover := s.clk.holdover }
        sec := { t.sec with dbg := s.sec.dbg, unlocking := s.sec.unlocking }
        boot := { t.boot with heldOff := [m], deaths := 1 } }

/-- After a field's death: a boot has lost its master, or nothing more follows. -/
def afterDeath (s : State) : State :=
  match s.boot.master with
  | none => s
  | some m => if decide (s.boot.st = .booting) && !(fieldAlive s m) then bootMasterDies s m else s

def execInputFault (s : State) : Out := .next (if s.power.on then inputFault s else s)

/-! ### The cap (R380, R381) -/

/-- EMERGENCY_CAP. -/
def execEmergencyCap (s : State) : Out :=
  .next (
    if s.power.on then
      let s := addTotal { s with power := { s.power with emergency := true } } 0x3000 10 1
      raise s (blankEvent clPower sevRecoverable meMonitor acNone) 0
    else s)

/-- CONVERTER_FAILURE: fewer than five are an input fault. -/
def execConverterFailure (s : State) : Out :=
  .next (
    if !s.power.on || s.power.converters = 0 then s
    else
      let n := s.power.converters - 1
      let s := raise { s with power := { s.power with converters := n } } (blankEvent clPower sevRecoverable meMonitor acNone) 0
      if n < 5 then inputFault s else s)

/-- The effective cap, W. -/
def effectiveCap (s : State) : Nat := Nat.min (liveNat s 0x3001 0 22000) (2850 * s.power.converters)

/-! ### The governor (R389 to R391) -/

def lookup (l : List (Nat × Nat)) (p : Nat) : Nat := ((l.find? (fun x => decide (x.1 = p))).map (·.2)).getD 0

/-- A partition in the governor's sums: its fields, and its predicted power at its requested point and at the point that it
runs, each as a baseline and a term for full issue. -/
structure Demand where
  id : Nat
  fields : Nat
  base : Nat
  dyn : Nat
  runBase : Nat
  runDyn : Nat
  cap : Nat
deriving DecidableEq, Repr, Inhabited

/-- Sixteen times the predicted power at issue cap k. -/
def Demand.at16 (d : Demand) (k : Nat) : Nat := 16 * d.base + d.dyn * k
def Demand.run16 (d : Demand) (k : Nat) : Nat := 16 * d.runBase + d.runDyn * k

/-- Every tile at full XT2 issue (R391): 23.5 kW at OP0, scaled to the fields. That is the XW49's whole draw (R42), of which the power
`rest` of cuffs, LPDDR6 and conversion loss is no field's: the budget has that taken off already (R389; log entry 175). -/
def worstPower (point fields rest : Nat) : Nat :=
  if point = 0 then (23500 - rest) * fields / 49 else Config.worstFieldPower point * fields

/-- What the predictor says of a partition: the worst case until it has 10 ms of measurements. A dead field has no share
(Table 15.4). -/
def demandOf (s : State) (m : GovMeas) (P : Part) (p : Nat) : Demand :=
  let n := (P.fields.filter (fieldAlive s)).length
  let cap := P.phaseCap P.phase.toNat
  if P.worst then
    let run := if P.lowered then min 4 (P.reqPoint + 1) else P.reqPoint
    let rest := m.other - m.idle
    ⟨p, n, 0, worstPower P.reqPoint n rest, 0, worstPower run n rest, cap⟩
  else
    let b := lookup m.base p
    let d := lookup m.dyn p
    if P.lowered then ⟨p, n, b, d, lookup m.baseLow p, lookup m.dynLow p, cap⟩ else ⟨p, n, b, d, b, d, cap⟩

/-- The rounds of R389: partitions whose demand is below their share keep it. Answers what is left for the rest (sixteen times
W), the fields of the rest, and who they are. -/
def shareRounds : Nat → Int → List Demand → Int × Nat × List Demand
  | 0, r, l => (r, (l.map (·.fields)).sum, l)
  | n + 1, r, l =>
    let f := (l.map (·.fields)).sum
    let kept := l.filter (fun d => decide (Int.ofNat (d.at16 d.cap * f) < r * Int.ofNat d.fields))
    if kept = [] then (r, f, l)
    else shareRounds n (r - Int.ofNat (kept.map (fun d => d.at16 d.cap)).sum) (l.filter (fun d => !(kept.contains d)))

/-- The largest k of 1 to 16 that fits. -/
def largestK (fits : Nat → Bool) : Nat := ([16, 15, 14, 13, 12, 11, 10, 9, 8, 7, 6, 5, 4, 3, 2].find? fits).getD 1

/-- Power k of each partition, and whether the requested point fits at 8 or more. -/
def govern (budget : Int) (l : List Demand) : List (Nat × Nat × Bool) :=
  let total := (l.map (fun d => d.at16 d.cap)).sum
  if Int.ofNat total ≤ 16 * budget then l.map (fun d => (d.id, 16, true))
  else
    let x := shareRounds l.length (16 * budget) l
    l.map (fun d =>
      if x.2.2.contains d then
        let room := x.1 * Int.ofNat d.fields
        (d.id, largestK (fun k => decide (Int.ofNat (d.run16 k * x.2.1) ≤ room)),
          decide (Int.ofNat (d.at16 8 * x.2.1) ≤ room))
      else (d.id, largestK (fun k => decide (d.run16 k ≤ d.at16 d.cap)), decide (d.at16 8 ≤ d.at16 d.cap)))

/-- Governor cycles in 10 ms. -/
def govWindow : Nat := 100

/-- A partition after a cycle: its k, the counts of R390 and the lowering, which never goes below OP4. `measured`: the cycle
has given the predictor a measurement; 100 of them are 10 ms (R391). -/
def Part.governed (P : Part) (k : Nat) (fits : Bool) (measured : Bool) : Part :=
  let seen := P.measured + b2n measured
  let low := if k ≤ 4 then P.lowCycles + 1 else 0
  let fit := if P.lowered && fits then P.fitCycles + 1 else 0
  let lowered := if P.lowered then decide (fit < govWindow) else decide (govWindow ≤ low) && decide (P.reqPoint < 4)
  { P with
    powerK := k, lowered := lowered, worst := P.worst && decide (seen < govWindow), measured := min seen govWindow
    lowCycles := if lowered = P.lowered then low else 0
    fitCycles := if lowered = P.lowered then fit else 0 }

def f32OfNat (n : Nat) : Word32 := BitVec.ofNat 32 (Wide.fp32.enc .even false (.fin ⟨false, n, 0⟩))

/-- GOVERNOR_CYCLE, which the boot master runs also in a compute reset (R389). A RUNNING partition is brought toward its point. -/
def execGovernorCycle (m : GovMeas) (s : State) : Out :=
  .next (
    if !s.power.on || !(decide (s.boot.st = .ready) || decide (s.boot.st = .computeReset)) then s
    else
      let cap := effectiveCap s
      let ds := (s.parts.filter (fun e => decide (e.2.st ≠ .free))).map (fun e => demandOf s m e.2 e.1)
      let ks := govern (Int.ofNat cap - Int.ofNat m.other) ds
      let s := { s with power := { s.power with
        volts := m.voltage, watts := f32OfNat m.input, emergency := s.power.emergency && !(decide (m.input ≤ cap)) } }
      forAll (fun s (x : Nat × Nat × Bool) =>
        let s := modPart s x.1 (fun P => P.governed x.2.1 x.2.2 (!(m.unmeasured.contains x.1)))
        if (getPart s x.1).st = .running && decide (s.boot.st = .ready) then steerPoint s x.1 else s) ks s)

/-! ### Energy (R394, R395) -/

/-- A field's share of the loss, in proportion to its output: rounded to the nearest microjoule, as in the worked example of
R395. -/
def lossShare (loss out total : Nat) : Nat := if total = 0 then 0 else (2 * loss * out + total) / (2 * total)

/-- What a partition's tiles weigh: w(i) times what TC_ACTi has gained. -/
def tileWeight (s : State) (t : XY) : Nat :=
  let T := getTile s t
  ((List.range 8).map (fun i => Config.actWeight t.field i * (T.getAct i - mget 0 T.actSeen i).toNat)).sum

/-- The weights of the queue pairs that moved bytes for a partition, by port and pair. -/
def movers (s : State) (P : Part) (p : Nat) : List ((HPort × Nat) × Nat) :=
  let w := Config.dmaWeight (7 * P.fy + P.fx)
  let on (h : HPort) : List ((HPort × Nat) × Nat) :=
    (portOf s h).qps.map (fun e => ((h, e.1), w * mget 0 e.2.moved p))
  (on .a ++ on .b).filter (fun x => decide (x.2 ≠ 0))

/-- Add a weight to a list of weights. -/
def addWeight (l : List ((HPort × Nat) × Nat)) (q : HPort × Nat) (w : Nat) : List ((HPort × Nat) × Nat) :=
  if l.any (fun x => decide (x.1 = q)) then l.map (fun x => if x.1 = q then (q, x.2 + w) else x) else (q, w) :: l

def addPairEnergy (s : State) (q : HPort × Nat) (e : Nat) : State :=
  modPort s q.1 (fun P => { P with energies := mset 0 P.energies q.2 (mget 0 P.energies q.2 + BitVec.ofNat 64 e) })

/-- The shares of d: the floor for each, the remainder to the largest. -/
def sharesOf (d : Nat) (l : List ((HPort × Nat) × Nat)) : List ((HPort × Nat) × Nat) :=
  let total := (l.map (·.2)).sum
  let fl := l.map (fun x => (x.1, d * x.2 / total))
  let rest := d - (fl.map (·.2)).sum
  match fl with
  | [] => []
  | a :: r =>
    let top := r.foldl (fun (m : (HPort × Nat) × Nat) x => if m.2 < x.2 then x else m) a
    addWeight fl top.1 rest

/-- The launch pair of a partition, while the pair exists; else one that no counter has, whose shares are the idle counter's. -/
def launchPair (s : State) (P : Part) : HPort × Nat :=
  (P.pair.filter (fun q => (getPair s q.1 q.2).isSome)).getD (P.port, noPair)

/-- A share of a partition's energy goes to a pair's counter, or to the partition's idle counter. -/
def giveShare (p : Nat) (s : State) (x : (HPort × Nat) × Nat) : State :=
  if x.1.2 = noPair then modPart s p (fun P => { P with idle := P.idle + BitVec.ofNat 64 x.2 }) else addPairEnergy s x.1 x.2

/-- Divide e, of which b is baseline, for a partition (R395): b goes to the launch pair of a RUNNING partition and else to the idle
counter, and d, where something has been done, by what each pair has done, the tiles' activity being the launch pair's. -/
def shareEnergy (s : State) (p e base : Nat) : State :=
  let P := getPart s p
  let b := min e base
  let d := e - b
  let acts := ((partTiles s P).map (tileWeight s)).sum
  let q := launchPair s P
  let none_ := (P.port, noPair)
  let ws := if acts = 0 then movers s P p else addWeight (movers s P p) q acts
  let total : Nat := (ws.map (·.2)).sum
  let s := giveShare p s (if P.st = .running then q else none_, b)
  let s := forAll (giveShare p) (if total = 0 then [(none_, d)] else sharesOf d ws) s
  modPart s p (fun P => { P with energy := P.energy + BitVec.ofNat 64 e })

/-- The interval's counts are read: the next one starts from here. -/
def closeInterval (s : State) : State :=
  let f (P : Port_) : Port_ := { P with qps := mmap (fun _ q => { q with moved := [] }) P.qps }
  let s := forAll (fun s (e : Nat × Tile) => modTile s (XY.ofKey e.1) (fun T => { T with actSeen := T.act })) s.tiles s
  { s with portA := f s.portA, portB := f s.portB }

/-- ENERGY_INTERVAL: a dead field's energy is not counted (Table 15.4). -/
def execEnergyInterval (m : EnergyMeas) (s : State) : Out :=
  .next (
    if !s.power.on then s
    else
      let outs := (List.range 49).map (fun f => (f, if fieldAlive s f then lookup m.fields f else 0))
      let sum := (outs.map (·.2)).sum
      let loss := m.input - (sum + m.lpddr + m.cuff)
      let es := outs.map (fun x => (x.1, x.2 + lossShare loss x.2 sum))
      let own (l : List Nat) : Nat := (l.map (fun f => lookup es f)).sum
      let s := addTotal (addTotal (addTotal s 0x3000 1 m.input) 0x3000 2 sum) 0x3000 3 m.lpddr
      let s := addTotal (addTotal s 0x3000 4 m.cuff) 0x3000 5 loss
      let s := addTotal s 0x3000 6 (own ((List.range 49).filter (fun f => (partOfField s f).isNone)))
      let s := forAll (fun s (x : Nat × Nat) =>
        if fieldAlive s x.1 then modField s x.1 (fun D => { D with watts := BitVec.ofNat 16 (x.2 / 100) }) else s) outs s
      let s := forAll (fun s (e : Nat × Part) =>
        if e.2.st = .free then s
        else shareEnergy s e.1 (own e.2.fields) ((e.2.fields.map (lookup m.base)).sum)) s.parts s
      closeInterval s)

/-! ### Field supplies (R382, R383) -/

/-- A trip in the ramp of a cold boot is recorded in the defect map with cause 5, whatever has tripped (R384). -/
def rampTrip (s : State) (f : Nat) : State :=
  if s.boot.st = .booting && s.boot.step = 1 then modField s f (fun D => { D with defect := some 5 }) else s

/-- FIELD_SUPPLY_TRIP: the event, then the field is dead (Table 15.4). At 115 °C THERMTRIP_N goes low. -/
def execFieldSupplyTrip (f : Nat) (cause : TripCause) (s : State) : Out :=
  .next (
    if !s.power.on || 48 < f || !(fieldAlive s f) then s
    else
      let s := rampTrip s f
      let ev (c : Nat) : State := raise s ((blankEvent c sevFatal meMonitor acFieldDead).atField s f) f
      afterDeath (match cause with
      | .short => fieldDies (ev clSupply) f .offShort
      | .supply => fieldDies (ev clSupply) f .offSupply
      | .thermal =>
        let s := addTotal (ev clThermal) 0x3400 4 1
        fieldDies { s with pins := { s.pins with thermtripN := false } } f .offThermal))

/-! ### Droop (R387) -/

/-- Tiles of a block that is not excluded. -/
def blockTiles (s : State) (f n : Nat) : List XY := (blockSites f n).filterMap (tileAt s)

/-- A block of a live field. -/
def blockOk (s : State) (f blk : Nat) : Bool := s.power.on && decide (f < 49) && decide (blk < 16) && fieldAlive s f

/-- DROOP_TRIP of a detector, of which a block has four: detector 4 b + i of a field is the i-th of its block b. -/
def execDroopTrip (f det : Nat) (s : State) : Out :=
  .next (
    let blk := det / 4
    if blockOk s f blk then
      let b := 16 * f + blk
      let v := getBlock s b
      let s := setBlock s b { v with droop := 8, hold := true, tripped := v.tripped ||| (1#4 <<< (det % 4)) }
      forAll (fun s t => setEvent s t evDroop) ((blockTiles s f blk).filter (tileLive s)) s
    else s)

/-- DROOP_RAMP: the hold is over, and 0.25 microseconds have passed. -/
def execDroopRamp (f blk : Nat) (s : State) : Out :=
  .next (
    let v := getBlock s (16 * f + blk)
    if blockOk s f blk && decide (v.droop < 16) then
      setBlock s (16 * f + blk) { v with droop := v.droop + 1, hold := false, tripped := if v.droop = 15 then 0 else v.tripped }
    else s)

/-! ### The thermal ladder (R392, Table 15.6) -/

def throttleAt (s : State) : Nat := liveNat s 0x3400 5 95

/-- A site's reading; an event when it reaches a threshold. -/
def readTemp (s : State) (x : SiteId × Nat) : State :=
  let v := getSite s x.1
  let crosses (th : Nat) : Bool := decide (v.temp < th) && decide (th ≤ x.2)
  let s := setSite s x.1 { v with temp := x.2 }
  if crosses (throttleAt s) || crosses 105 then
    raise s ((blankEvent clThermal sevInfo meMonitor acNone).atSite s x.1) x.1.key
  else s

/-- The hottest of the sites that this reading names, of those that `f` picks. -/
def hottestOf (l : List (SiteId × Nat)) (f : SiteId → Bool) : Nat := ((l.filter (fun x => f x.1)).map (·.2)).foldl Nat.max 0

/-- A block with a site read at 105 °C: CCLK stops, and its tiles set TC_EVENT.THERM_STOP. A restart that was due is off. -/
def stopBlock (l : List (SiteId × Nat)) (s : State) (f n : Nat) : State :=
  let b := 16 * f + n
  if hottestOf l (fun a => decide (a.block = b)) < 105 then s
  else if (getBlock s b).stopped then setBlock s b { (getBlock s b) with restart := false }
  else
    let s := setBlock (addTotal s 0x3400 3 1) b { (getBlock s b) with stopped := true }
    forAll (fun s t => setEvent s t evThermStop) ((blockTiles s f n).filter (tileLive s)) s

/-- A field's reading acts: throttle, block stops, power-off (Table 15.6). -/
def heatField (l : List (SiteId × Nat)) (s : State) (f : Nat) : State :=
  let hot := hottestOf l (fun a => decide (a.field = f))
  let all := ((List.range 16).map (blockTemp s f)).foldl Nat.max 0
  let s := modField s f (fun D => { D with hottest := all })
  let s :=
    if throttleAt s ≤ hot then
      let D := getField s f
      let s := if D.thermal = 16 then addTotal s 0x3400 2 1 else s
      modField s f (fun D => { D with thermal := Nat.max 1 (D.thermal - 1) })
    else s
  let s := forAll (fun s n => stopBlock l s f n) (List.range 16) s
  if 115 ≤ hot then
    let s := raise (rampTrip s f) ((blankEvent clThermal sevFatal meMonitor acFieldDead).atField s f) f
    let s := addTotal s 0x3400 4 1
    fieldDies { s with pins := { s.pins with thermtripN := false } } f .offThermal
  else s

/-- THERMAL_READING. A reading of a dead field's site is none. -/
def execThermalReading (temps : List (SiteId × Nat)) (s : State) : Out :=
  .next (
    if !s.power.on then s
    else
      let l := temps.filter (fun x => x.1.valid && fieldAlive s x.1.field && decide (x.2 < 256))
      let s := forAll readTemp l s
      let fs := (List.range 49).filter (fun f => l.any (fun x => decide (x.1.field = f)))
      let s := forAll (heatField l) fs s
      let hot := ((List.range 49).map (fun f => (getField s f).hottest)).foldl Nat.max 0
      afterDeath { s with power := { s.power with hottest := hot } })

/-- THERMAL_RECOVERY: every site below the threshold less 3 °C for 1 ms. -/
def execThermalRecovery (f : Nat) (s : State) : Out :=
  .next (
    let D := getField s f
    if s.power.on && decide (f < 49) && fieldAlive s f && decide (D.thermal < 16) && decide (D.hottest + 3 < throttleAt s) then
      setField s f { D with thermal := D.thermal + 1 }
    else s)

/-- BLOCK_CLOCK_RESTART: below 100 °C for 1 ms. CCLK restarts in the field's next cycle with c = 0: now where the count stands
there and runs, otherwise when it comes there or a change of operating point restarts it (R369, R392). -/
def execBlockClockRestart (f blk : Nat) (s : State) : Out :=
  .next (
    let b := 16 * f + blk
    let v := getBlock s b
    let D := getField s f
    if blockOk s f blk && v.stopped && decide (blockTemp s f blk < 100) then
      let s := setBlock s b { v with restart := true }
      if D.cyc.toNat % 16 = 0 && !D.stopped && !s.clk.lost || s.sec.unlocking.isSome then restartBlock s f blk else s
    else s)

end Sys2Proof.Machine
end

