-- ==== Sys2Proof/Machine/Boot.lean ====
section
/-!
DEFINITION. Power-up, cold boot, the ends of device-wide resets, and field controllers (R20 to R22, R328, R329, R397 to R405,
R420 to R423, R445, R451 to R454, R461, R474). What a bring-up finds is an operand.
-/
namespace Sys2Proof.Machine

/-! ### READY (R329, R347) -/

/-- The dictionary reports READY: vector 0 of every function, and one NOTIFY of every on-change subscription. -/
def announceReady (s : State) : State := notifyReady (vectorAll (vectorAll s .a 0) .b 0)

/-! ### Ends of device-wide resets (Tables 16.4 and 16.5) -/

/-- COMPUTE_RESET_DONE: quick BIST, the Woad broadcast and the Ochre subset have run and the Cloak map is confirmed (Table 16.4,
R420). A first-ever boot alone leaves sites unproven. -/
def execComputeResetDone (facts : BringUp) (s : State) : Out :=
  .next (
    if s.boot.resetting = some .compute && decide (s.boot.st = .computeReset) && !s.clk.lost && facts.reached then
      let s := bringSites s false true { facts with fmax := quickSweep facts.fmax, unproven := [] }
      announceReady (answerWaiting (resetEnded (comeBack s) 2))
    else s)

/-- A port whose PERST# is high trains its link. -/
def linkIfReleased (s : State) (p : HPort) : State :=
  let high := match p with
    | .a => s.pins.perstA
    | .b => s.pins.perstB
  if high && !(portOf s p).linkUp then trainLink s p else s

/-- Steps 4 and 5 of Table 16.5: tripped fields, clocks, seams, DRAM, links; the predictor starts over. -/
def retrain (s : State) (facts : BringUp) : State :=
  let s := forAll (reviveField facts.softTrip) (List.range 49) s
  let s := clocksAfterFull s
  let s := forAll trainBundle facts.badLanes s
  let s := forAll findComplex (List.range 28) s
  let s := forAll (trainChannel facts.badChannels) (List.range 224) s
  let s := allOp4 s
  let s := { s with parts := mmap (fun _ (P : Part) => { P with worst := true, measured := 0 }) s.parts }
  let s := nameStandby { s with boot := { s.boot with silent := false } }
  linkIfReleased (linkIfReleased s .a) .b

/-- FULL_RESET_DONE: without a reference nothing comes back; a bring-up that has not reached READY leaves 0x1000:09 at 3. The map
is measured where it differs from its last record (R412). -/
def execFullResetDone (facts : BringUp) (s : State) : Out :=
  .next (
    if s.boot.resetting = some .full && decide (s.boot.st = .fullPending) && (s.clk.goodA || s.clk.goodB) then
      let s := retrain s facts
      if facts.reached then
        let s := bringSites s true true { facts with fmax := quickSweep facts.fmax, unproven := [] }
        announceReady (resetEnded (comeBack s) 3)
      else measureCloak s
    else s)

/-- RESET_ESCALATION: 5 s of a compute reset, 30 s of a full reset (R461). -/
def execResetEscalation (s : State) : Out :=
  .next (
    if s.boot.resetting = some .compute then decideFull s
    else if s.boot.resetting = some .full && decide (s.boot.st = .fullPending) then failDevice s s.boot.step
    else s)

/-! ### Cold boot (Table 16.1) -/

/-- A field is not powered, or has lost its power in its ramp: its complexes are not there. -/
def unpowered (s : State) (f : Nat) (how : FieldPower) : State :=
  forAll loseComplex (complexesOf f) (modField s f (fun D => { D with power := how }))

/-- Step 1: fields of the defect map, and the one held off for this boot, stay unpowered; a field that fails its ramp is recorded
with cause 5 (R384, R401). -/
def rampField (fails : List Nat) (s : State) (f : Nat) : State :=
  if !(fieldAlive s f) then s
  else if (getField s f).defect.isSome || s.boot.heldOff.contains f then unpowered s f .offDefect
  else if fails.contains f then
    let s := unpowered (modField s f (fun D => { D with defect := some 5 })) f .offSupply
    raise s ((blankEvent clSupply sevFatal meMonitor acFieldDead).atField s f) f
  else s

/-- The saved dictionary's valid copy with the higher generation (R354). -/
def bootCopy (v : Saved) : SMap (List Byte) :=
  if v.valid0 && (!v.valid1 || decide (v.gen1 ≤ v.gen0)) then v.copy0 else if v.valid1 then v.copy1 else []

/-- The reference at power-up: the one that 0x4000:02 names, or the other, if good (R359, R360). -/
def firstRef (s : State) : Option RefClk :=
  let want : RefClk := if liveNat { s with saved := { s.saved with live := bootCopy s.saved } } 0x4000 2 0 = 1 then .b else .a
  if refGood s want then some want else if refGood s (otherRef want) then some (otherRef want) else none

/-- Step 2: PLL-F and PLL-C of every powered field lock to the active reference, at OP4. CCLK stays held while an unlock clears secrets
(Table 16.9). -/
def lockPlls (s : State) (r : RefClk) : State :=
  let s := { s with clk := { s.clk with active := some r } }
  forAll (fun s f => if fieldAlive s f then modField s f (fun D =>
    { D with op := 4, pllC := true, pllF := true, stopped := s.sec.unlocking.isSome }) else s) (List.range 49) s

/-- Step 3: the election (R398). -/
def electMaster (s : State) (cands : List Nat) : Option State :=
  let s := { s with boot := { s.boot with candidates := cands } }
  (electOrder.find? (candidate s)).map (fun m => nameStandby { s with boot := { s.boot with master := some m } })

/-- The values of the saved dictionary that a unit holds (R354, R360, R228). -/
def loadSaved (s : State) : State :=
  let s := { s with saved := { s.saved with live := bootCopy s.saved } }
  { s with
    dram := { s.dram with loc := decide (liveNat s 0x4801 0 0 = 1) }
    xdt := { s.xdt with timeState := if liveNat s 0x7040 1 0xFF = 0xFF then 0 else 1 } }

/-- The image, when it verifies (R404); `ok` says whether its bytes do. -/
def bootable (s : State) (b ok : Bool) : Option (Nat × Nat × Nat) :=
  if ok then (heldImage s b).filter (fun v => decide (minSvnOf s ≤ v.2.1)) else none

/-- The image is invalid for this boot; the next boot tries it again (R405). -/
def badImage (s : State) (b : Bool) : State :=
  { s with boot := { s.boot with badImages := s.boot.badImages ||| (1#2 <<< b2n b) } }

/-- Step 4: the selected image, or the other with a firmware event (R405); none where neither verifies. -/
def selectImage (s : State) (ok : List Bool) : Option State :=
  let first := decide (liveNat s 0x8010 1 0 = 1)
  let try_ (b : Bool) : Option (Nat × Nat × Nat) := bootable s b (ok.getD (b2n b) false)
  let run (s : State) (b : Bool) (v : Nat × Nat × Nat) : State := { s with sec := { s.sec with
    booted := if b then 1 else 0, version := BitVec.ofNat 32 v.1, runSvn := v.2.1, ochre := BitVec.ofNat 32 v.2.2 } }
  match try_ first, try_ (!first) with
  | some v, _ => some (run s first v)
  | none, some v => some (raise (run (badImage s first) (!first) v) (blankEvent clFirmware sevInfo meFirmware acNone) 0)
  | none, none => none

/-- Step 4 ends: the identity key is unsealed and a nonce drawn, but for a device whose secrets an unlock has cleared (R411,
R415, R417). -/
def unsealed (s : State) : State :=
  if s.sec.dbg = 0 && s.sec.unlocking.isNone then
    let s := drawNonce s
    { s with sec := { s.sec with identity := true } }
  else s

/-- The last wave is in regulation: PWR_GOOD goes high, at which a PERST# that is high already counts as going high (R474). -/
def allRamped (s : State) : State :=
  linkIfReleased (linkIfReleased { s with pins := { s.pins with pwrGood := true } } .a) .b

/-- The step that runs ends, and the next one begins or the boot has failed. Steps 1 to 4 only. -/
def bootStepEnd (s : State) (facts : BootFacts) : State :=
  let go (s : State) : State := { s with boot := { s.boot with step := s.boot.step + 1 } }
  match s.boot.step.toNat with
  | 1 => go (allRamped (forAll (rampField facts.rampFail) (List.range 49) s))
  | 2 => match firstRef s with
    | none => failDevice s 2
    | some r => go (lockPlls s r)
  | 3 => match electMaster s facts.candidates with
    | none => failDevice s 3
    | some s => go s
  | 4 =>
    let s := setAlert (loadSaved s)
    match selectImage s facts.imageOk with
    | none => failDevice s 4
    | some s => go (unsealed s)
  | _ => s

/-- What is left of steps 1 to 4. -/
def runBoot (s : State) (facts : BootFacts) : State :=
  forAll (fun s (_ : Nat) => if s.boot.st = .booting then bootStepEnd s facts else s) (List.range 4) s

/-- When a step ends, in ns after power enable (Table 16.1, R400): on a routine boot, on a first-ever one, and on the fallback
path, whose step 5 takes 74.5 s. -/
def stepEnds (first slow : Bool) (step : Nat) : Nat :=
  let bist := if slow then 74500000000 else if first then 16600000000 else 4250000000
  match step with
  | 1 => 120000000
  | 2 => 200000000
  | 3 => 210000000
  | 4 => 1000000000
  | 5 => bist
  | 6 => bist + 100000000
  | 7 => bist + 2500000000
  | _ => bist + (if first then 3200000000 else 2600000000)

/-- A TCLK cycle of a cold boot: steps 1 to 4 end by time, step 2 once a reference is good and at the latest after 1 s (R401);
steps 5 to 8 show the time (R399), and BOOT_READY says what they have found. -/
def bootTick (s : State) : State :=
  if !s.power.on || s.boot.st ≠ .booting then s
  else match s.boot.facts with
    | none => s
    | some facts =>
      let s := { s with boot := { s.boot with elapsed := s.boot.elapsed + 2 } }
      let n := s.boot.step.toNat
      if s.boot.elapsed < stepEnds s.boot.firstEver facts.noBudget n then s
      else if n < 5 then
        if n = 2 && (firstRef s).isNone && decide (s.boot.elapsed < 1000000000) then s else bootStepEnd s facts
      else if n < 9 && s.boot.facts.isSome then { s with boot := { s.boot with step := BitVec.ofNat 8 (min 9 (n + 1)) } }
      else s

/-- PWR_EN_HIGH: power enable; the steps of the cold boot follow. A latched input fault keeps the block off unless PWR_EN has been low
for 500 ms or the busbar has fallen below 20 V (R474). Where neither is so and nothing is latched, power enable comes later, which
is timing (log entry 8). -/
def execPwrEnHigh (facts : BootFacts) (s : State) : Out :=
  .next (
    if s.pins.pwrEn then s
    else if s.pins.faultLatched && !facts.lowLong then { s with pins := { s.pins with pwrEn := true } }
    else powerEnable { s with pins := { s.pins with faultLatched := false } } facts)

/-- The four records of step 9 (R412). -/
def bootRecords (s : State) : State :=
  let s := addMeasure s 1 (BitVec.ofNat 512 (leNat (measurement s 1)))
  let s := addMeasure s 2 (BitVec.ofNat 512 s.sec.ochre.toNat)
  let s := recordCloak s
  addMeasure s 4 (BitVec.ofNat 512 s.sec.dbg.toNat)

/-- The map is marked confirmed, unless a first-ever boot leaves a site unproven (R400, R423). What the boot has changed in the
maps is in both copies. -/
def confirmBoot (s : State) : State :=
  let left := s.sites.any (fun e => e.2.unproven)
  { s with
    saved := { s.saved with maps := 3 }
    boot := { s.boot with confirmed := if s.boot.firstEver then !left else s.boot.confirmed } }

/-- Steps 5 to 8: seams, DRAM and its reserved granule, sites, the Woad broadcast, the maps. Only the full BIST of a first-ever
boot on the fallback path leaves sites unproven, and a first-ever boot leaves every fmax value guarded (R400, R422). -/
def bringUpBoot (s : State) (facts : BringUp) (slow : Bool) : State :=
  let first := s.boot.firstEver
  let s := forAll trainBundle facts.badLanes s
  let s := rewriteReserved (forAll (trainChannel facts.badChannels) (List.range 224) s)
  let s := { s with
    dram := { s.dram with devKey := s.sec.unlocking.isNone && decide (s.sec.dbg = 0) }
    clk := { s.clk with sync := if fieldAlive s 24 then 0 else if fieldAlive s 18 then 1 else 0xFF } }
  confirmBoot (bringSites s true (!first) { facts with
    fmax := if first then facts.fmax else quickSweep facts.fmax, unproven := if first && slow then facts.unproven else [] })

/-- A section read again that does not match its DIGEST in three retries takes the boot back to step 4 with the other image
(R404); the bring-up then runs under that one. -/
def reread (s : State) (n : Nat) (facts : BootFacts) : State :=
  if n < 4 || s.boot.st ≠ .booting then s
  else
    let s := badImage s (decide (s.sec.booted = 1))
    bootStepEnd { s with boot := { s.boot with step := 4 } } facts

/-- BOOT_READY: what is left of steps 1 to 4, then steps 5 to 9. -/
def execBootReady (facts : BringUp) (s : State) : Out :=
  .next (
    if s.power.on && decide (s.boot.st = .booting) && facts.reached then
      match s.boot.facts with
      | none => s
      | some b =>
        let s := reread (runBoot s b) facts.rereads b
        if s.boot.st ≠ .booting || s.clk.lost then s
        else
          let s := resetAllTiles (allOp4 (bringUpBoot s facts b.noBudget))
          announceReady (bootRecords { s with boot := { s.boot with st := .ready, step := 9, facts := none } })
    else s)

/-- PWR_EN_LOW: every rail goes off, and THERMTRIP_N is released (R474, Table 19.4). A latched fault stays until the next PWR_EN high
shows how long PWR_EN has been low. -/
def execPwrEnLow (s : State) : Out :=
  .next (powerOff { s with pins := { s.pins with pwrEn := false, thermtripN := true, forceOffN := true } })

/-- FORCE_OFF_N low. -/
def execForceOffN (s : State) : Out := .next (powerOff { s with pins := { s.pins with forceOffN := false } })

/-! ### Seam lanes in service (R20 to R22) -/

/-- LANE_COMPARE_STEP: the unused Hem lane leaves its data lane; a disagreement takes it for that lane. A bundle with both in use
is exhausted and compares nothing. -/
def execLaneCompareStep (bundle : Nat) (disagree : Bool) (s : State) : Out :=
  .next (
    let v := mget {} s.bundles bundle
    let fs := bundleFields bundle
    if bundle < 1386 * 92 && tclkRuns s && fieldAlive s fs.1 && fieldAlive s fs.2 && decide (v.bad < 2) then
      let n := if disagree then v.bad + 1 else v.bad
      let v' : Bundle := { (if disagree then v.loseLane v.lane else v) with lane := (v.lane + 1) % 32, exhausted := v.exhausted || decide (2 ≤ n) }
      let s := { s with bundles := mset {} s.bundles bundle v' }
      if disagree then raiseLane bundle s v.lane else s
    else s)

/-! ### Field controllers (R445, R451 to R454) -/

/-- EVENT_FORWARD: a hung controller forwards nothing. -/
def execEventForward (t : XY) (bit : Nat) (s : State) : Out :=
  .next (if tileLive s t && s.power.on && !(getField s t.field).hung && decide (bit < 14) then forwardEvent s t bit else s)

/-- HEARTBEAT: every 32 ms, from the election of a boot master on (R398); `heard` are the controllers whose heartbeats arrive, the
boot master's at the standby. -/
def execHeartbeat (heard : List Nat) (s : State) : Out :=
  .next (
    if !s.power.on then s
    else match s.boot.master with
    | none => s
    | some m =>
      let s := forAll (fun s f =>
        if fieldAlive s f && !(getField s f).hung then
          modField s f (fun D => { D with missed := if heard.contains f then 0 else D.missed + 1 })
        else s) (List.range 49) s
      if heard.contains m && fieldAlive s m then { s with boot := { s.boot with heartbeat := s.boot.heartbeat + 1 } } else s)

/-- The controller has missed three heartbeats and its hang is not yet dealt with. -/
def isHung (s : State) (f : Nat) : Bool := fieldAlive s f && !(getField s f).hung && decide (3 ≤ (getField s f).missed)

/-- The hang is recorded: true where it is the third within 1 h. -/
def markHung (s : State) (f : Nat) : State × Bool :=
  let D := getField s f
  let l := s.clk.gtc :: D.hangs.filter (fun g => decide (s.clk.gtc < g + 3600000000000))
  (setField s f { D with hung := true, hangs := l }, decide (3 ≤ l.length))

/-- CONTROLLER_HANG of a controller other than the boot master: the third within 1 h records the field with cause 6 and decides a
full reset. -/
def execControllerHang (f : Nat) (s : State) : Out :=
  .next (
    if isHung s f && s.power.on && decide (f < 49) && decide (s.boot.master ≠ some f) then
      let s := raise s ((blankEvent clHeartbeat sevRecoverable meHeartbeat acNone).atField s f) f
      let x := markHung s f
      let s := if x.1.boot.standby = some f then nameStandby x.1 else x.1
      if x.2 then decideFull (modField s f (fun D => { D with defect := some 6 })) else s
    else s)

/-- CONTROLLER_RESTARTED: the events left set meanwhile are forwarded, the standby is named anew (R451), and steps of the walk that
have become late may follow (R430, R453). -/
def execControllerRestarted (f : Nat) (s : State) : Out :=
  .next (
    let D := getField s f
    if D.hung && fieldAlive s f && decide (f < 49) then
      let s := nameStandby (setField s f { D with hung := false, missed := 0 })
      let s := forAll (fun s t => forwardAll s t) ((fieldTiles f).filter (tileLive s)) s
      if s.boot.st = .ready then stepsDone ((List.range 16).foldl (fun y r => takeDue y f r []) (s, false)) else s
    else s)

/-- A mailbox request in progress at the old boot master completes with BUSY (R454). -/
def busyMailboxes (s : State) (p : HPort) : State :=
  let busy (v : FnState) : FnState :=
    if v.busy && v.ready.isNone then
      let l := v.request
      { v with ready := some (aceelHeader (num l 0 1 % 128 + 128) 0 (num l 2 2) (num l 4 1) stBusy.toNat (num l 6 2) 0
          (if blockOp (num l 0 1) then num l 12 4 else 0)) }
    else v
  modPort s p (fun P => { P with fns := mmap (fun _ v => busy v) P.fns })

/-- The boot master is gone: its field is dead, or its controller hung. -/
def masterGone (s : State) : Bool :=
  match s.boot.master with
  | none => false
  | some m => !(fieldAlive s m) || isHung s m

/-- BOOT_MASTER_FAILOVER: the standby takes over with the mirrored state and decides a compute reset; one lost during a compute
reset makes it a full reset (R454, R460). What waited for an answer at the old one gets none. -/
def execBootMasterFailover (s : State) : Out :=
  .next (
    if !s.power.on || s.boot.st = .booting || s.boot.st = .failed || !(masterGone s) then s
    else
      let old := s.boot.master.getD 0
      let s := if fieldAlive s old then (markHung s old).1 else s
      match electOrder.find? (candidate s) with
      | none => failDevice { s with boot := { s.boot with master := none, standby := none } } 3
      | some first =>
        let new := match s.boot.standby with
          | some b => if candidate s b then b else first
          | none => first
        let s := nameStandby { s with
          boot := { s.boot with master := some new }
          sec := { s.sec with identity := decide (s.sec.dbg = 0) && s.sec.unlocking.isNone }
          aceel := { s.aceel with answered := [], waiting := [] } }
        let s := busyMailboxes (busyMailboxes s .a) .b
        let s := raise s ((blankEvent clHeartbeat sevFatal meHeartbeat acCompute).atField s old) old
        if s.boot.resetting = some .compute then decideFull s else decideCompute s)

end Sys2Proof.Machine
end

