-- ==== Sys2Proof/Machine/DictWrite.lean ====
section
/-!
DEFINITION. The rows that write one dictionary entry: each is an Aceel WRITE of its value (R338), whose rules the operation of
its entry lays down. Where several rows share an entry (0x5020, 0x8021) the value itself says which it is, and a value of
another row is judged as it stands.
-/
namespace Sys2Proof.Machine

/-! ### Partitions, contexts, queue pairs, regions (R314 to R319, R468) -/

def execCreatePartition (w : WReq) (data : List Byte) (s : State) : Out := writeRow w 0x2002 0 data s
def execReleasePartition (w : WReq) (data : List Byte) (s : State) : Out := writeRow w 0x2003 0 data s
def execMovePartition (w : WReq) (data : List Byte) (s : State) : Out := writeRow w 0x2004 0 data s
def execTransferPartition (w : WReq) (data : List Byte) (s : State) : Out := writeRow w 0x2005 0 data s
def execBindContext (w : WReq) (data : List Byte) (s : State) : Out := writeRow w 0x2010 0 data s
def execUnbindContext (w : WReq) (data : List Byte) (s : State) : Out := writeRow w 0x2011 0 data s
def execCreateQueuePair (w : WReq) (data : List Byte) (s : State) : Out := writeRow w 0x6820 0 data s
def execDeleteQueuePair (w : WReq) (data : List Byte) (s : State) : Out := writeRow w 0x6821 0 data s

/-- The index is one of the four of a port's regions; another is no such write. -/
def execHostWindowRegion (w : WReq) (ix sub : Nat) (data : List Byte) (s : State) : Out :=
  if 0x6810 ≤ ix && ix ≤ 0x6813 then writeRow w ix sub data s else .next s

/-! ### Memory, queues, streams, numerics (R206, R229, R238, R257, R154, R171) -/

def execAllocateGranules (w : WReq) (data : List Byte) (s : State) : Out := writeRow w 0x4803 0 data s
def execReleaseGranules (w : WReq) (data : List Byte) (s : State) : Out := writeRow w 0x4804 0 data s
def execInterleaveMode (w : WReq) (data : List Byte) (s : State) : Out := writeRow w 0x4801 0 data s
def execQueueSetup (w : WReq) (data : List Byte) (s : State) : Out := writeRow w 0x2810 0 data s
def execSlotMode (w : WReq) (sub : Nat) (data : List Byte) (s : State) : Out := writeRow w 0x2402 sub data s
def execReconfigurationMode (w : WReq) (sub : Nat) (data : List Byte) (s : State) : Out := writeRow w 0x2401 sub data s
def execScaleTableDescriptor (w : WReq) (sub : Nat) (data : List Byte) (s : State) : Out := writeRow w 0x7801 sub data s
def execClearHistograms (w : WReq) (data : List Byte) (s : State) : Out := writeRow w 0x7883 0 data s
def execProtectedRegions (w : WReq) (sub : Nat) (data : List Byte) (s : State) : Out := writeRow w 0x6002 sub data s

/-! ### Scale-out and clocks (R287, R305, R360) -/

def execConnectionDescriptor (w : WReq) (ix sub : Nat) (data : List Byte) (s : State) : Out :=
  if 0x7010 ≤ ix && ix ≤ 0x701F then writeRow w ix sub data s else .next s
def execAperture (w : WReq) (ix sub : Nat) (data : List Byte) (s : State) : Out :=
  if ix = 0x7020 || ix = 0x7021 then writeRow w ix sub data s else .next s
def execPreferredReference (w : WReq) (data : List Byte) (s : State) : Out := writeRow w 0x4000 2 data s

/-! ### Tests, events, resets (R437, R444, R468) -/

def execSiteTest (w : WReq) (data : List Byte) (s : State) : Out := writeRow w 0x5020 0 data s
def execFieldTest (w : WReq) (data : List Byte) (s : State) : Out := writeRow w 0x5020 0 data s
def execDramCalibrationRequest (w : WReq) (data : List Byte) (s : State) : Out := writeRow w 0x5020 0 data s
def execClearLatchedClasses (w : WReq) (data : List Byte) (s : State) : Out := writeRow w 0x5803 0 data s
def execContextResetWrite (w : WReq) (data : List Byte) (s : State) : Out := writeRow w 0x6000 1 data s
def execComputeResetWrite (w : WReq) (data : List Byte) (s : State) : Out := writeRow w 0x6000 2 data s
def execFullResetWrite (w : WReq) (data : List Byte) (s : State) : Out := writeRow w 0x6000 3 data s

/-! ### Security (R353, R406, R407, R414, R415) -/

/-- The image arrives in blocks; this is the write that its LAST block performs. -/
def execImageWrite (w : WReq) (image : List Byte) (s : State) : Out :=
  let h : Req := ⟨w.ep, 4, 1, 0x8012, 0, 0, w.tag, image.length, 0, w.flashOk, {}⟩
  .next (serveReq s h image true (fun s => writeReply s h image true))

def execCommitSvn (w : WReq) (data : List Byte) (s : State) : Out := writeRow w 0x8011 0 data s
def execOwnerKeySlot (w : WReq) (sub : Nat) (data : List Byte) (s : State) : Out := writeRow w 0x8020 sub data s
def execDebugPolicy (w : WReq) (data : List Byte) (s : State) : Out := writeRow w 0x8023 0 data s
def execSetSlot (w : WReq) (data : List Byte) (s : State) : Out := writeRow w 0x8021 0 data s
def execClearSlot (w : WReq) (data : List Byte) (s : State) : Out := writeRow w 0x8021 0 data s
def execSetDebugPolicy (w : WReq) (data : List Byte) (s : State) : Out := writeRow w 0x8021 0 data s
def execRestoreDefaults (w : WReq) (data : List Byte) (s : State) : Out := writeRow w 0x1800 3 data s

end Sys2Proof.Machine
end

