-- ==== Sys2Proof/Machine/Scalar.lean ====
section
/-!
DEFINITION. Scalar arithmetic (R82, Tables 3.4 and 3.5) and branches (R83, Table 3.6).
-/
namespace Sys2Proof.Machine

/-! ### Shared operations -/

/-- Table 3.4: g[D] receives f of g[SA] and g[SB]. -/
def alu (t : XY) (d sa sb : Reg) (f : Word64 → Word64 → Word64) (s : State) : Out :=
  issueG s t 1 d [sa, sb] true (fun T => f (T.getG sa) (T.getG sb))

/-- Table 3.5: g[D] receives f of g[SA] and the sign-extended immediate. -/
def aluImm (t : XY) (d sa : Reg) (imm : Imm) (f : Word64 → Word64 → Word64) (s : State) : Out :=
  issueG s t imm.words d [sa] true (fun T => f (T.getG sa) imm.value)

/-- Table 3.5: a shift by an immediate; bits above the count must be zero. -/
def shiftImm (t : XY) (d sa : Reg) (imm : Imm) (f : Word64 → Nat → Word64) (s : State) : Out :=
  issueG s t imm.words d [sa] imm.shift.isSome (fun T => f (T.getG sa) (imm.shift.getD 0))

def ofBool64 (b : Bool) : Word64 := if b then 1 else 0

/-- Shift counts are bits [5:0] of a register (Table 3.4). -/
def shCount (b : Word64) : Nat := b.toNat % 64

/-- Signed quotient toward zero; by zero all ones; -2^63 by -1 gives -2^63 (R82). -/
def quotS (a b : Word64) : Word64 := if b = 0 then BitVec.allOnes 64 else a.sdiv b
def remS (a b : Word64) : Word64 := if b = 0 then a else a.srem b
def quotU (a b : Word64) : Word64 := if b = 0 then BitVec.allOnes 64 else a / b
def remU (a b : Word64) : Word64 := if b = 0 then a else a % b

/-- High 64 bits of the signed and of the unsigned product. -/
def mulHighS (a b : Word64) : Word64 := ((a.signExtend 128 * b.signExtend 128) >>> 64).setWidth 64
def mulHighU (a b : Word64) : Word64 := ((a.setWidth 128 * b.setWidth 128) >>> 64).setWidth 64

/-- Leading zero bits among the n low bits. -/
def leadZeros (v : Word64) : Nat → Nat
  | 0 => 0
  | n + 1 => if v.getLsbD n then 0 else 1 + leadZeros v n

def popCount (v : Word64) : Nat → Nat
  | 0 => 0
  | n + 1 => b2n (v.getLsbD n) + popCount v n

/-! ### ALU, register (Table 3.4) -/

/-- ADD (R82). -/
def execAdd (t : XY) (d sa sb : Reg) (s : State) : Out := alu t d sa sb (fun a b => a + b) s
/-- SUB (R82). -/
def execSub (t : XY) (d sa sb : Reg) (s : State) : Out := alu t d sa sb (fun a b => a - b) s
/-- AND (R82). -/
def execAnd (t : XY) (d sa sb : Reg) (s : State) : Out := alu t d sa sb (fun a b => a &&& b) s
/-- OR (R82). -/
def execOr (t : XY) (d sa sb : Reg) (s : State) : Out := alu t d sa sb (fun a b => a ||| b) s
/-- XOR (R82). -/
def execXor (t : XY) (d sa sb : Reg) (s : State) : Out := alu t d sa sb (fun a b => a ^^^ b) s
/-- SLL (R82). -/
def execSll (t : XY) (d sa sb : Reg) (s : State) : Out := alu t d sa sb (fun a b => a <<< shCount b) s
/-- SRL (R82). -/
def execSrl (t : XY) (d sa sb : Reg) (s : State) : Out := alu t d sa sb (fun a b => a >>> shCount b) s
/-- SRA (R82). -/
def execSra (t : XY) (d sa sb : Reg) (s : State) : Out := alu t d sa sb (fun a b => a.sshiftRight (shCount b)) s
/-- SLT (R82). -/
def execSlt (t : XY) (d sa sb : Reg) (s : State) : Out := alu t d sa sb (fun a b => ofBool64 (a.slt b)) s
/-- SLTU (R82). -/
def execSltu (t : XY) (d sa sb : Reg) (s : State) : Out := alu t d sa sb (fun a b => ofBool64 (a.ult b)) s
/-- MIN (R82). -/
def execMin (t : XY) (d sa sb : Reg) (s : State) : Out := alu t d sa sb (fun a b => if a.slt b then a else b) s
/-- MAX (R82). -/
def execMax (t : XY) (d sa sb : Reg) (s : State) : Out := alu t d sa sb (fun a b => if a.slt b then b else a) s
/-- MINU (R82). -/
def execMinu (t : XY) (d sa sb : Reg) (s : State) : Out := alu t d sa sb (fun a b => if a.ult b then a else b) s
/-- MAXU (R82). -/
def execMaxu (t : XY) (d sa sb : Reg) (s : State) : Out := alu t d sa sb (fun a b => if a.ult b then b else a) s

/-- SEL: g[SA] if g[D] is nonzero, else g[SB] (R82). -/
def execSel (t : XY) (d sa sb : Reg) (s : State) : Out :=
  issueG s t 1 d [sa, sb] true (fun T => if T.getG d ≠ 0 then T.getG sa else T.getG sb)
/-- MUL (R82). -/
def execMul (t : XY) (d sa sb : Reg) (s : State) : Out := alu t d sa sb (fun a b => a * b) s
/-- MULH (R82). -/
def execMulh (t : XY) (d sa sb : Reg) (s : State) : Out := alu t d sa sb (fun a b => mulHighS a b) s
/-- MULHU (R82). -/
def execMulhu (t : XY) (d sa sb : Reg) (s : State) : Out := alu t d sa sb (fun a b => mulHighU a b) s
/-- DIV (R82). -/
def execDiv (t : XY) (d sa sb : Reg) (s : State) : Out := alu t d sa sb (fun a b => quotS a b) s
/-- DIVU (R82). -/
def execDivu (t : XY) (d sa sb : Reg) (s : State) : Out := alu t d sa sb (fun a b => quotU a b) s
/-- REM (R82). -/
def execRem (t : XY) (d sa sb : Reg) (s : State) : Out := alu t d sa sb (fun a b => remS a b) s
/-- REMU (R82). -/
def execRemu (t : XY) (d sa sb : Reg) (s : State) : Out := alu t d sa sb (fun a b => remU a b) s
/-- CLZ (R82); its SB is g0, a reserved field that a decoded command does not carry. -/
def execClz (t : XY) (d sa : Reg) (s : State) : Out :=
  issueG s t 1 d [sa] true (fun T => BitVec.ofNat 64 (leadZeros (T.getG sa) 64))
/-- POPC (R82). -/
def execPopc (t : XY) (d sa : Reg) (s : State) : Out :=
  issueG s t 1 d [sa] true (fun T => BitVec.ofNat 64 (popCount (T.getG sa) 64))

/-! ### ALU, immediate (Table 3.5) -/

/-- ADDI (R82). -/
def execAddi (t : XY) (d sa : Reg) (imm : Imm) (s : State) : Out := aluImm t d sa imm (fun a b => a + b) s
/-- ANDI (R82). -/
def execAndi (t : XY) (d sa : Reg) (imm : Imm) (s : State) : Out := aluImm t d sa imm (fun a b => a &&& b) s
/-- ORI (R82). -/
def execOri (t : XY) (d sa : Reg) (imm : Imm) (s : State) : Out := aluImm t d sa imm (fun a b => a ||| b) s
/-- XORI (R82). -/
def execXori (t : XY) (d sa : Reg) (imm : Imm) (s : State) : Out := aluImm t d sa imm (fun a b => a ^^^ b) s
/-- SLLI (R82). -/
def execSlli (t : XY) (d sa : Reg) (imm : Imm) (s : State) : Out := shiftImm t d sa imm (fun a n => a <<< n) s
/-- SRLI (R82). -/
def execSrli (t : XY) (d sa : Reg) (imm : Imm) (s : State) : Out := shiftImm t d sa imm (fun a n => a >>> n) s
/-- SRAI (R82). -/
def execSrai (t : XY) (d sa : Reg) (imm : Imm) (s : State) : Out := shiftImm t d sa imm (fun a n => a.sshiftRight n) s
/-- SLTI (R82). -/
def execSlti (t : XY) (d sa : Reg) (imm : Imm) (s : State) : Out := aluImm t d sa imm (fun a b => ofBool64 (a.slt b)) s
/-- LIH: (X << 32) or (g[SA] and 0xFFFF_FFFF); SB is reserved (R79, R82). -/
def execLih (t : XY) (d sa : Reg) (x : Ext) (s : State) : Out :=
  issueG s t 2 d [sa] true (fun T => (x.setWidth 64 <<< 32) ||| (T.getG sa &&& 0xFFFFFFFF))

/-! ### Branches (R83) -/

/-- A conditional branch to (PC + OFF12) mod 4,096. -/
def branch (t : XY) (sa sb : Reg) (off : Off12) (c : Word64 → Word64 → Bool) (s : State) : Out :=
  issue s t 1 [sa, sb] true noHold (fun T =>
    setTile s t (if c (T.getG sa) (T.getG sb) then { (T.retire 0) with pc := (T.pc.setWidth 12 + off).setWidth 13 } else T.retire 1))

/-- g[D] receives PC + 1, and the next word is at the target. -/
def link (t : XY) (d : Reg) (regs : List Reg) (target : Tile → BitVec 12) (s : State) : Out :=
  issue s t 1 (d :: regs) true noHold (fun T =>
    setTile s t { ((T.setG d ((T.pc + 1).setWidth 64)).retire 0) with pc := (target T).setWidth 13 })

/-- BEQ (R83). -/
def execBeq (t : XY) (sa sb : Reg) (off : Off12) (s : State) : Out := branch t sa sb off (fun a b => decide (a = b)) s
/-- BNE (R83). -/
def execBne (t : XY) (sa sb : Reg) (off : Off12) (s : State) : Out := branch t sa sb off (fun a b => decide (a ≠ b)) s
/-- BLT (R83). -/
def execBlt (t : XY) (sa sb : Reg) (off : Off12) (s : State) : Out := branch t sa sb off (fun a b => a.slt b) s
/-- BGE (R83). -/
def execBge (t : XY) (sa sb : Reg) (off : Off12) (s : State) : Out := branch t sa sb off (fun a b => !(a.slt b)) s
/-- BLTU (R83). -/
def execBltu (t : XY) (sa sb : Reg) (off : Off12) (s : State) : Out := branch t sa sb off (fun a b => a.ult b) s
/-- BGEU (R83). -/
def execBgeu (t : XY) (sa sb : Reg) (off : Off12) (s : State) : Out := branch t sa sb off (fun a b => !(a.ult b)) s
/-- JAL (R83); SA is reserved. -/
def execJal (t : XY) (d : Reg) (off : Off12) (s : State) : Out := link t d [] (fun T => T.pc.setWidth 12 + off) s
/-- JALR: the target is (g[SA] + OFF12) mod 4,096, with g[SA] read before g[D] is written (R83). -/
def execJalr (t : XY) (d sa : Reg) (off : Off12) (s : State) : Out :=
  link t d [sa] (fun T => (T.getG sa).setWidth 12 + off) s

end Sys2Proof.Machine
end

