-- ==== Sys2Proof/Machine/Vector.lean ====
section
/-!
DEFINITION. Vector instructions (R88 to R92, R126, R157 to R159, R165, R167; Tables 3.11 and 3.12).
-/
namespace Sys2Proof.Machine

/-! ### Lane operations -/

/-- Apply f to corresponding lanes of w bits. -/
def map2 (w : Nat) (f : Nat → Nat → Nat) (a b : Vec) : Vec := ofLanes w (List.zipWith f (lanesOf w a) (lanesOf w b))
def map1 (w : Nat) (f : Nat → Nat) (a : Vec) : Vec := ofLanes w ((lanesOf w a).map f)

/-- A lane result that wraps (R89). -/
def wrapLane (w : Nat) (v : Int) : Nat := (v % Int.ofNat (2 ^ w)).toNat

/-- A lane-wise operation: fi on integer lanes (as signed integers, wrapping), ff on floating-point values, rounded to
nearest even with overflow to infinity (R89, R126). -/
def lane2 (ty : Ty) (fi : Int → Int → Int) (ff : Val → Val → Val) (a b : Vec) : Vec :=
  match floatTy ty with
  | some k => map2 k.width (fun x y => k.enc .even false (ff (k.dec x) (k.dec y))) a b
  | none =>
    let w := (laneBits ty).getD 8
    map2 w (fun x y => wrapLane w (fi (signedLane w x) (signedLane w y))) a b

def lane1 (ty : Ty) (fi : Int → Int) (ff : Val → Val) (a : Vec) : Vec :=
  match floatTy ty with
  | some k => map1 k.width (fun x => k.enc .even false (ff (k.dec x))) a
  | none =>
    let w := (laneBits ty).getD 8
    map1 w (fun x => wrapLane w (fi (signedLane w x))) a

/-- v[SA] × v[SB] + v[D] on one lane, one rounding (Table 3.11). -/
def fmaLane (k : Wide) (x y z : Nat) : Nat := k.enc .even false (((k.dec x).mul (k.dec y)).add (k.dec z))

def fma (k : Wide) (a b c : Vec) : Vec :=
  ofLanes k.width (List.zipWith (fun p z => fmaLane k p.1 p.2 z)
    ((lanesOf k.width a).zip (lanesOf k.width b)) (lanesOf k.width c))

/-- maximum and minimum of IEEE 754-2019: NaN when either is NaN, -0 below +0 (R89). -/
def vmaxVal (a b : Val) : Val :=
  match a, b with
  | .nan, _ => .nan
  | _, .nan => .nan
  | _, _ => if a.before b then b else a
def vminVal (a b : Val) : Val :=
  match a, b with
  | .nan, _ => .nan
  | _, .nan => .nan
  | _, _ => if b.before a then b else a

/-- The comparison of VCMPLT: signed on integer lanes, and false where a NaN stands. -/
def lessLane (ty : Ty) (w x y : Nat) : Bool :=
  match floatTy ty with
  | some k => (k.dec x).lt (k.dec y)
  | none => decide (signedLane w x < signedLane w y)

/-- TY is defined (R79). -/
def tyOk (ty : Ty) : Bool := (laneBits ty).isSome
def tyInt (ty : Ty) : Bool := tyOk ty && (floatTy ty).isNone

/-- A vector instruction of two sources with a defined TY. -/
def vec2 (t : XY) (d sa sb : Reg) (good : Bool) (f : Vec → Vec → Vec) (s : State) : Out :=
  issueV s t 1 d [sa, sb] [] good (fun T => f (T.getV sa) (T.getV sb))

/-- A vector instruction that writes a scalar register from the vector registers vs. -/
def vecG (t : XY) (n : Nat) (d : Reg) (vs regs : List Reg) (good : Bool) (f : Tile → Word64) (s : State) : Out :=
  issue s t n (d :: regs) good (holdV vs) (fun T => setTile s t (((T.setG d (f T)).addAct 1 1).retire n))

/-- VADD (R89). -/
def execVadd (t : XY) (d sa sb : Reg) (ty : Ty) (s : State) : Out :=
  vec2 t d sa sb (tyOk ty) (lane2 ty (· + ·) Val.add) s
/-- VSUB (R89). -/
def execVsub (t : XY) (d sa sb : Reg) (ty : Ty) (s : State) : Out :=
  vec2 t d sa sb (tyOk ty) (lane2 ty (· - ·) (fun a b => a.add b.neg)) s
/-- VMUL (R89). -/
def execVmul (t : XY) (d sa sb : Reg) (ty : Ty) (s : State) : Out :=
  vec2 t d sa sb (tyOk ty) (lane2 ty (· * ·) Val.mul) s
/-- VFMA: floating-point TY only (R89). -/
def execVfma (t : XY) (d sa sb : Reg) (ty : Ty) (s : State) : Out :=
  issueV s t 1 d [sa, sb] [] (floatTy ty).isSome (fun T =>
    fma ((floatTy ty).getD .bf16) (T.getV sa) (T.getV sb) (T.getV d))
/-- VMAX (R89). -/
def execVmax (t : XY) (d sa sb : Reg) (ty : Ty) (s : State) : Out :=
  vec2 t d sa sb (tyOk ty) (lane2 ty max vmaxVal) s
/-- VMIN (R89). -/
def execVmin (t : XY) (d sa sb : Reg) (ty : Ty) (s : State) : Out :=
  vec2 t d sa sb (tyOk ty) (lane2 ty min vminVal) s
/-- VABS; a NaN result is canonical (R89, R111). -/
def execVabs (t : XY) (d sa : Reg) (ty : Ty) (s : State) : Out :=
  vec2 t d sa sa (tyOk ty) (fun a _ => lane1 ty (fun x => if x < 0 then -x else x) Val.abs a) s
/-- VNEG; a NaN result is canonical (R89, R111). -/
def execVneg (t : XY) (d sa : Reg) (ty : Ty) (s : State) : Out :=
  vec2 t d sa sa (tyOk ty) (fun a _ => lane1 ty (fun x => -x) Val.neg a) s
/-- VAND: all 512 bits (R89). -/
def execVand (t : XY) (d sa sb : Reg) (ty : Ty) (s : State) : Out := vec2 t d sa sb (tyOk ty) (· &&& ·) s
/-- VOR (R89). -/
def execVor (t : XY) (d sa sb : Reg) (ty : Ty) (s : State) : Out := vec2 t d sa sb (tyOk ty) (· ||| ·) s
/-- VXOR (R89). -/
def execVxor (t : XY) (d sa sb : Reg) (ty : Ty) (s : State) : Out := vec2 t d sa sb (tyOk ty) (· ^^^ ·) s

/-- Shifts of integer lanes: the count is the low log2(lane bits) bits of the v[SB] lane (Table 3.11). -/
def shiftLanes (ty : Ty) (f : Nat → Nat → Nat → Nat) (a b : Vec) : Vec :=
  let w := (laneBits ty).getD 8
  map2 w (fun x y => f w x (y % w)) a b

/-- VSLL: integer TY only (R89). -/
def execVsll (t : XY) (d sa sb : Reg) (ty : Ty) (s : State) : Out :=
  vec2 t d sa sb (tyInt ty) (shiftLanes ty (fun w x n => x <<< n % 2 ^ w)) s
/-- VSRL (R89). -/
def execVsrl (t : XY) (d sa sb : Reg) (ty : Ty) (s : State) : Out :=
  vec2 t d sa sb (tyInt ty) (shiftLanes ty (fun _ x n => x >>> n)) s
/-- VSRA (R89). -/
def execVsra (t : XY) (d sa sb : Reg) (ty : Ty) (s : State) : Out :=
  vec2 t d sa sb (tyInt ty) (shiftLanes ty (fun w x n => wrapLane w (signedLane w x >>> n))) s
/-- VSEL: judged by the bits of the v[D] lane (R89). -/
def execVsel (t : XY) (d sa sb : Reg) (ty : Ty) (s : State) : Out :=
  issueV s t 1 d [sa, sb] [] (tyOk ty) (fun T =>
    let w := (laneBits ty).getD 8
    ofLanes w (List.zipWith (fun c p => if c ≠ 0 then p.1 else p.2) (lanesOf w (T.getV d))
      ((lanesOf w (T.getV sa)).zip (lanesOf w (T.getV sb)))))
/-- VCMPLT (R89). -/
def execVcmplt (t : XY) (d sa sb : Reg) (ty : Ty) (s : State) : Out :=
  vec2 t d sa sb (tyOk ty) (fun a b =>
    let w := (laneBits ty).getD 8
    map2 w (fun x y => if lessLane ty w x y then 2 ^ w - 1 else 0) a b) s
/-- VBCAST: the low lane bits of g[SA] (Table 3.11). -/
def execVbcast (t : XY) (d sa : Reg) (ty : Ty) (s : State) : Out :=
  issueV s t 1 d [] [sa] (tyOk ty) (fun T =>
    let w := (laneBits ty).getD 8
    ofLanes w (List.replicate (512 / w) ((T.getG sa).toNat % 2 ^ w)))
/-- VEXT: lane g[SB] mod lanes, zero-extended (Table 3.11). -/
def execVext (t : XY) (d sa sb : Reg) (ty : Ty) (s : State) : Out :=
  vecG t 1 d [sa] [sb] (tyOk ty) (fun T =>
    let w := (laneBits ty).getD 8
    BitVec.ofNat 64 ((lanesOf w (T.getV sa)).getD ((T.getG sb).toNat % (512 / w)) 0)) s
/-- VMOV (Table 3.11). -/
def execVmov (t : XY) (d sa : Reg) (ty : Ty) (s : State) : Out := vec2 t d sa sa (tyOk ty) (fun a _ => a) s

/-! ### VLD and VST (R90) -/

/-- VLD: 64 bytes; an uncorrectable word faults (R483). -/
def execVld (t : XY) (d sa : Reg) (x : Ext) (up : Upset) (s : State) : Out :=
  issue s t 2 [sa] true (holdV [d]) (fun T =>
    let a := localAddr T sa (x.signExtend 64)
    if !(localOk false a 64) then faultCore s t evAddrFault
    else if T.zeroising then waitCore s t
    else if T.fenced then
      setTile s t ((({ T with awaitV := d :: T.awaitV }.later (.vload d a up)).addAct 1 1).retire 2)
    else
      let r := padRead s t a 64 up
      if r.2.1 then faultCore r.1 t evEccUe
      else if up = .parity then
        let v := readParity r.1 t
        modTile v.2 t (fun T => (((T.setV d (BitVec.ofNat 512 v.1)).addAct 1 1).addAct 3 1).retire 2)
      else modTile r.1 t (fun T =>
        (((T.setV d (BitVec.ofNat 512 (leNat r.2.2))).addAct 1 1).addAct 3 1).retire 2))

/-- VST (R90). -/
def execVst (t : XY) (d : Sent) (sa : Reg) (x : Ext) (s : State) : Out :=
  issue s t 2 [sa] true (holdV [d.reg]) (fun T =>
    let a := localAddr T sa (x.signExtend 64)
    if !(localOk false a 64) then faultCore s t evAddrFault
    else if T.zeroising then waitCore s t
    else if T.fenced then
      setTile s t (((T.later (.vstore a (natBytes 64 (T.getV d.reg).toNat) d.bad)).addAct 1 1).retire 2)
    else modTile (padPut s t a (natBytes 64 (T.getV d.reg).toNat) d.bad) t (fun T => ((T.addAct 1 1).addAct 3 1).retire 2))

/-! ### 32 elements in one register or a pair (R90) -/

def Tile.elems (T : Tile) (k : Wide) (r : Reg) : List Nat :=
  if k = .fp32 then lanesOf 32 (T.getV r) ++ lanesOf 32 (T.getV (pairOf r)) else lanesOf 16 (T.getV r)

def Tile.setElems (T : Tile) (k : Wide) (r : Reg) (l : List Nat) : Tile :=
  if k = .fp32 then (T.setV r (ofLanes 32 (l.take 16))).setV (pairOf r) (ofLanes 32 (l.drop 16))
  else T.setV r (ofLanes 16 l)

/-- The registers that hold 32 elements: a pair for FP32. -/
def vecRegs (k : Option Wide) (r : Reg) : List Reg := if k = some .fp32 then [r, pairOf r] else [r]

/-- FMT is a blocked format, 0x03 to 0x0C (R91). -/
def blockedFmt (f : FmtCode) : Option Fmt :=
  match fmtOf f with
  | some k => if k.blocked then some k else none
  | none => none

/-- Draws for 32 elements when RND = 1: 16 words (R60). -/
def Tile.drawIf (T : Tile) (rnd : Bool) (n : Nat) : List Nat × Tile := if rnd then T.draws n else ([], T)

/-- The blocks of a quantisation of values, with draws in element order. -/
def quantAll (f : Fmt) (tile : Word32) (rnd : Bool) (draws : List Nat) (v : List Val) : List (Nat × List Nat) :=
  List.zipWith (quantBlock f tile rnd) (chunks f.block (if rnd then draws else List.replicate v.length 0))
    (chunks f.block v)

/-- VQZ (R91, R125): quantised elements to v[D], block scales to g[GS]. -/
def execVqz (t : XY) (d sa sb : Reg) (fmt : FmtCode) (rnd : Bool) (sty : Ty) (gs : Reg) (s : State) : Out :=
  let good := match blockedFmt fmt, floatTy sty with
    | some _, some k => pairOk k sa
    | _, _ => false
  issue s t 2 [sb, gs] good (fun T => holdDraw rnd T || holdV (d :: vecRegs (floatTy sty) sa) T) (fun T =>
    match blockedFmt fmt, floatTy sty with
    | some f, some k =>
      let dr := T.drawIf rnd 32
      let q := quantAll f (fp32Of (T.getG sb)) rnd dr.1 ((T.elems k sa).map k.dec)
      let T := (dr.2.setV d (BitVec.ofNat 512 (packCodes f.width (q.flatMap (·.2))))).setG gs
        (BitVec.ofNat 64 (packCodes 8 (q.map (·.1))))
      setTile s t ((T.addAct 1 1).retire 2)
    | _, _ => s)

/-- Decode n elements of a blocked format: codes, scale codes and tile scale (R117, R118). -/
def dequant (f : Fmt) (tile : Word32) (codes scales : List Nat) : List Val :=
  List.zipWith (fun i c => f.dec (scales.getD (i / f.block) 0) tile c) (List.range codes.length) codes

/-- VDQ (R91): decoded, then rounded once to the nearest even (R126). -/
def execVdq (t : XY) (d sa sb : Reg) (fmt : FmtCode) (dty : Ty) (gs : Reg) (s : State) : Out :=
  let good := match blockedFmt fmt, floatTy dty with
    | some _, some k => pairOk k d
    | _, _ => false
  issue s t 2 [sb, gs] good (holdV (sa :: vecRegs (floatTy dty) d)) (fun T =>
    match blockedFmt fmt, floatTy dty with
    | some f, some k =>
      let v := dequant f (fp32Of (T.getG sb)) (unpackCodes f.width 32 (T.getV sa).toNat)
        (unpackCodes 8 8 (T.getG gs).toNat)
      setTile s t (((T.setElems k d (v.map (k.enc .even true))).addAct 1 1).retire 2)
    | _, _ => s)

/-- The largest magnitude among values, none when one is NaN (R165). -/
def amaxVal : List Val → Val
  | [] => .fin (Dy.zero false)
  | v :: r =>
    match amaxVal r, v with
    | .nan, _ => .nan
    | _, .nan => .nan
    | m, v => if m.lt v.abs then v.abs else m

/-- What VAMAX writes: the larger of g[D] and the largest magnitude of the elements, as FP32; NaN where either is NaN, and
infinity where an element is infinite (R165). -/
def vamaxCode (k : Wide) (elems : List Nat) (g : Word32) : Word64 :=
  match amaxVal (elems.map k.dec), Wide.fp32.dec g.toNat with
  | .nan, _ => BitVec.ofNat 64 Wide.fp32.nanCode
  | _, .nan => BitVec.ofNat 64 Wide.fp32.nanCode
  | .inf _, _ => BitVec.ofNat 64 Wide.fp32.infCode
  | m, gv => if m.lt gv then g.setWidth 64 else BitVec.ofNat 64 (Wide.fp32.enc .even true m)

/-- VAMAX (R165). -/
def execVamax (t : XY) (d sa : Reg) (sty : Ty) (s : State) : Out :=
  let good := match floatTy sty with
    | some k => pairOk k sa
    | none => false
  vecG t 2 d (vecRegs (floatTy sty) sa) [] good (fun T =>
    match floatTy sty with
    | none => 0
    | some k => vamaxCode k (T.elems k sa) (fp32Of (T.getG d))) s

/-- VUPDC (R92, R157 to R159). Where D and SB name one register, both results would be its new value and the spec gives
no order: the register takes a free value (log entry 3). -/
def execVupdc (t : XY) (d sa sb : Reg) (s : State) : Out :=
  issue s t 2 [] (isEven sa) (holdV [d, sb, sa, pairOf sa]) (fun T =>
    let w := lanesOf 16 (T.getV d)
    let c := (unpackCodes 8 32 (T.getV sb).toNat)
    let u := T.elems .fp32 sa
    let r := List.zipWith (fun p x => updc p.1 p.2 x) (w.zip c) u
    let T1 := (T.setV d (ofLanes 16 (r.map (·.1)))).setV sb (BitVec.ofNat 512 (packCodes 8 (r.map (·.2))))
    if d = sb then
      let f := freeVal s
      setTile f.2 t (((T.setV d (BitVec.ofNat 512 f.1)).addAct 1 1).retire 2)
    else setTile s t ((T1.addAct 1 1).retire 2))

/-- VCVT (R126, R167). -/
def execVcvt (t : XY) (d sa : Reg) (rnd : Bool) (sty dty : Ty) (s : State) : Out :=
  let good := match floatTy sty, floatTy dty with
    | some a, some b => pairOk a sa && pairOk b d
    | _, _ => false
  issue s t 2 [] good (fun T => holdDraw rnd T || holdV (vecRegs (floatTy sty) sa ++ vecRegs (floatTy dty) d) T) (fun T =>
    match floatTy sty, floatTy dty with
    | some a, some b =>
      let dr := T.drawIf rnd 32
      let r := List.zipWith (fun i c => b.enc (rndAt rnd dr.1 i) true (a.dec c)) (List.range 32) (T.elems a sa)
      setTile s t (((dr.2.setElems b d r).addAct 1 1).retire 2)
    | _, _ => s)

end Sys2Proof.Machine
end

