-- ==== Sys2Proof/Machine/Dispatch.lean ====
section
/-!
DEFINITION. The dispatch: one arm per command, each one direct call of that command's meaning.
-/
namespace Sys2Proof.Machine

/-- The meaning of a command, on everything but the queue of waiting commands. -/
def exec (i : Instr) (s : State) : Host.Outcome State Fault Refusal :=
  match i with
  | .add t d sa sb => Sys2Proof.Machine.execAdd t d sa sb s
  | .sub t d sa sb => Sys2Proof.Machine.execSub t d sa sb s
  | .and t d sa sb => Sys2Proof.Machine.execAnd t d sa sb s
  | .or t d sa sb => Sys2Proof.Machine.execOr t d sa sb s
  | .xor t d sa sb => Sys2Proof.Machine.execXor t d sa sb s
  | .sll t d sa sb => Sys2Proof.Machine.execSll t d sa sb s
  | .srl t d sa sb => Sys2Proof.Machine.execSrl t d sa sb s
  | .sra t d sa sb => Sys2Proof.Machine.execSra t d sa sb s
  | .slt t d sa sb => Sys2Proof.Machine.execSlt t d sa sb s
  | .sltu t d sa sb => Sys2Proof.Machine.execSltu t d sa sb s
  | .min t d sa sb => Sys2Proof.Machine.execMin t d sa sb s
  | .max t d sa sb => Sys2Proof.Machine.execMax t d sa sb s
  | .minu t d sa sb => Sys2Proof.Machine.execMinu t d sa sb s
  | .maxu t d sa sb => Sys2Proof.Machine.execMaxu t d sa sb s
  | .sel t d sa sb => Sys2Proof.Machine.execSel t d sa sb s
  | .mul t d sa sb => Sys2Proof.Machine.execMul t d sa sb s
  | .mulh t d sa sb => Sys2Proof.Machine.execMulh t d sa sb s
  | .mulhu t d sa sb => Sys2Proof.Machine.execMulhu t d sa sb s
  | .div t d sa sb => Sys2Proof.Machine.execDiv t d sa sb s
  | .divu t d sa sb => Sys2Proof.Machine.execDivu t d sa sb s
  | .rem t d sa sb => Sys2Proof.Machine.execRem t d sa sb s
  | .remu t d sa sb => Sys2Proof.Machine.execRemu t d sa sb s
  | .clz t d sa => Sys2Proof.Machine.execClz t d sa s
  | .popc t d sa => Sys2Proof.Machine.execPopc t d sa s
  | .addi t d sa imm => Sys2Proof.Machine.execAddi t d sa imm s
  | .andi t d sa imm => Sys2Proof.Machine.execAndi t d sa imm s
  | .ori t d sa imm => Sys2Proof.Machine.execOri t d sa imm s
  | .xori t d sa imm => Sys2Proof.Machine.execXori t d sa imm s
  | .slli t d sa imm => Sys2Proof.Machine.execSlli t d sa imm s
  | .srli t d sa imm => Sys2Proof.Machine.execSrli t d sa imm s
  | .srai t d sa imm => Sys2Proof.Machine.execSrai t d sa imm s
  | .slti t d sa imm => Sys2Proof.Machine.execSlti t d sa imm s
  | .lih t d sa x => Sys2Proof.Machine.execLih t d sa x s
  | .beq t sa sb off => Sys2Proof.Machine.execBeq t sa sb off s
  | .bne t sa sb off => Sys2Proof.Machine.execBne t sa sb off s
  | .blt t sa sb off => Sys2Proof.Machine.execBlt t sa sb off s
  | .bge t sa sb off => Sys2Proof.Machine.execBge t sa sb off s
  | .bltu t sa sb off => Sys2Proof.Machine.execBltu t sa sb off s
  | .bgeu t sa sb off => Sys2Proof.Machine.execBgeu t sa sb off s
  | .jal t d off => Sys2Proof.Machine.execJal t d off s
  | .jalr t d sa off => Sys2Proof.Machine.execJalr t d sa off s
  | .lb t d sa imm up => Sys2Proof.Machine.execLb t d sa imm up s
  | .lh t d sa imm up => Sys2Proof.Machine.execLh t d sa imm up s
  | .lw t d sa imm up => Sys2Proof.Machine.execLw t d sa imm up s
  | .ld t d sa imm up => Sys2Proof.Machine.execLd t d sa imm up s
  | .lbu t d sa x up => Sys2Proof.Machine.execLbu t d sa x up s
  | .lhu t d sa x up => Sys2Proof.Machine.execLhu t d sa x up s
  | .lwu t d sa x up => Sys2Proof.Machine.execLwu t d sa x up s
  | .sb t d sa imm => Sys2Proof.Machine.execSb t d sa imm s
  | .sh t d sa imm => Sys2Proof.Machine.execSh t d sa imm s
  | .sw t d sa imm => Sys2Proof.Machine.execSw t d sa imm s
  | .sd t d sa imm => Sys2Proof.Machine.execSd t d sa imm s
  | .gld t d sa off u sz => Sys2Proof.Machine.execGld t d sa off u sz s
  | .gst t d sa off sz => Sys2Proof.Machine.execGst t d sa off sz s
  | .gdmaGet t d sa sb => Sys2Proof.Machine.execGdmaGet t d sa sb s
  | .gdmaPut t d sa sb => Sys2Proof.Machine.execGdmaPut t d sa sb s
  | .vadd t d sa sb ty => Sys2Proof.Machine.execVadd t d sa sb ty s
  | .vsub t d sa sb ty => Sys2Proof.Machine.execVsub t d sa sb ty s
  | .vmul t d sa sb ty => Sys2Proof.Machine.execVmul t d sa sb ty s
  | .vfma t d sa sb ty => Sys2Proof.Machine.execVfma t d sa sb ty s
  | .vmax t d sa sb ty => Sys2Proof.Machine.execVmax t d sa sb ty s
  | .vmin t d sa sb ty => Sys2Proof.Machine.execVmin t d sa sb ty s
  | .vabs t d sa ty => Sys2Proof.Machine.execVabs t d sa ty s
  | .vneg t d sa ty => Sys2Proof.Machine.execVneg t d sa ty s
  | .vand t d sa sb ty => Sys2Proof.Machine.execVand t d sa sb ty s
  | .vor t d sa sb ty => Sys2Proof.Machine.execVor t d sa sb ty s
  | .vxor t d sa sb ty => Sys2Proof.Machine.execVxor t d sa sb ty s
  | .vsll t d sa sb ty => Sys2Proof.Machine.execVsll t d sa sb ty s
  | .vsrl t d sa sb ty => Sys2Proof.Machine.execVsrl t d sa sb ty s
  | .vsra t d sa sb ty => Sys2Proof.Machine.execVsra t d sa sb ty s
  | .vsel t d sa sb ty => Sys2Proof.Machine.execVsel t d sa sb ty s
  | .vcmplt t d sa sb ty => Sys2Proof.Machine.execVcmplt t d sa sb ty s
  | .vbcast t d sa ty => Sys2Proof.Machine.execVbcast t d sa ty s
  | .vext t d sa sb ty => Sys2Proof.Machine.execVext t d sa sb ty s
  | .vmov t d sa ty => Sys2Proof.Machine.execVmov t d sa ty s
  | .vld t d sa x up => Sys2Proof.Machine.execVld t d sa x up s
  | .vst t d sa x => Sys2Proof.Machine.execVst t d sa x s
  | .vqz t d sa sb fmt rnd sty gs => Sys2Proof.Machine.execVqz t d sa sb fmt rnd sty gs s
  | .vdq t d sa sb fmt dty gs => Sys2Proof.Machine.execVdq t d sa sb fmt dty gs s
  | .vamax t d sa sty => Sys2Proof.Machine.execVamax t d sa sty s
  | .vupdc t d sa sb => Sys2Proof.Machine.execVupdc t d sa sb s
  | .vcvt t d sa rnd sty dty => Sys2Proof.Machine.execVcvt t d sa rnd sty dty s
  | .mcfg t d fmtA fmtB tag => Sys2Proof.Machine.execMcfg t d fmtA fmtB tag s
  | .mldb t sa sb acc => Sys2Proof.Machine.execMldb t sa sb acc s
  | .mma t sa sb k z => Sys2Proof.Machine.execMma t sa sb k z s
  | .mswap t => Sys2Proof.Machine.execMswap t s
  | .mdrain t d sa sb fmt rnd => Sys2Proof.Machine.execMdrain t d sa sb fmt rnd s
  | .matrixQueueHead t => Sys2Proof.Machine.execMatrixQueueHead t s
  | .mmaStart t => Sys2Proof.Machine.execMmaStart t s
  | .mmaComplete t bad flips => Sys2Proof.Machine.execMmaComplete t bad flips s
  | .mdrainComplete t => Sys2Proof.Machine.execMdrainComplete t s
  | .qopen t d sa sb ch pin => Sys2Proof.Machine.execQopen t d sa sb ch pin s
  | .qsend t d sa sb ch => Sys2Proof.Machine.execQsend t d sa sb ch s
  | .qwait t d q => Sys2Proof.Machine.execQwait t d q s
  | .qpeek t d q => Sys2Proof.Machine.execQpeek t d q s
  | .qpop t d q => Sys2Proof.Machine.execQpop t d q s
  | .qclose t d ch => Sys2Proof.Machine.execQclose t d ch s
  | .sendStall t => Sys2Proof.Machine.execSendStall t s
  | .msgInjected t => Sys2Proof.Machine.execMsgInjected t s
  | .closeSend t ch => Sys2Proof.Machine.execCloseSend t ch s
  | .responseTimeout t k => Sys2Proof.Machine.execResponseTimeout t k s
  | .sget t d p h gk => Sys2Proof.Machine.execSget t d p h gk s
  | .sput t d p h fin => Sys2Proof.Machine.execSput t d p h fin s
  | .sgetm t d sa sb p => Sys2Proof.Machine.execSgetm t d sa sb p s
  | .sputm t d sa sb p fin => Sys2Proof.Machine.execSputm t d sa sb p fin s
  | .spass t d sb p q => Sys2Proof.Machine.execSpass t d sb p q s
  | .streamDmaComplete t k => Sys2Proof.Machine.execStreamDmaComplete t k s
  | .sgetmLineFlush t k => Sys2Proof.Machine.execSgetmLineFlush t k s
  | .tokenArrival t p err => Sys2Proof.Machine.execTokenArrival t p err s
  | .routedForward t p => Sys2Proof.Machine.execRoutedForward t p s
  | .creditReturn t p crpErr => Sys2Proof.Machine.execCreditReturn t p crpErr s
  | .detourLineWrite t => Sys2Proof.Machine.execDetourLineWrite t s
  | .detourMarkerRelease t => Sys2Proof.Machine.execDetourMarkerRelease t s
  | .csw t d slot => Sys2Proof.Machine.execCsw t d slot s
  | .cload t d sa slot => Sys2Proof.Machine.execCload t d sa slot s
  | .cloadComplete t => Sys2Proof.Machine.execCloadComplete t s
  | .configTokenSend t => Sys2Proof.Machine.execConfigTokenSend t s
  | .configToken t p => Sys2Proof.Machine.execConfigToken t p s
  | .cflush t d slot => Sys2Proof.Machine.execCflush t d slot s
  | .cflushQ t d slot => Sys2Proof.Machine.execCflushQ t d slot s
  | .epoch t d mask slot => Sys2Proof.Machine.execEpoch t d mask slot s
  | .autoSwitch t => Sys2Proof.Machine.execAutoSwitch t s
  | .step t d => Sys2Proof.Machine.execStep t d s
  | .stepRelease p => Sys2Proof.Machine.execStepRelease p s
  | .rotationWindow p crcBad => Sys2Proof.Machine.execRotationWindow p crcBad s
  | .phase t ix => Sys2Proof.Machine.execPhase t ix s
  | .gtc t d => Sys2Proof.Machine.execGtc t d s
  | .evt t sa => Sys2Proof.Machine.execEvt t sa s
  | .fence t d mode => Sys2Proof.Machine.execFence t d mode s
  | .fenceComplete t => Sys2Proof.Machine.execFenceComplete t s
  | .halt t => Sys2Proof.Machine.execHalt t s
  | .tcCtrlWrite t val => Sys2Proof.Machine.execTcCtrlWrite t val s
  | .tcSlotWrite t n val => Sys2Proof.Machine.execTcSlotWrite t n val s
  | .tcEventWrite t val => Sys2Proof.Machine.execTcEventWrite t val s
  | .tcRngSeedHiWrite t val => Sys2Proof.Machine.execTcRngSeedHiWrite t val s
  | .tcSendStallWrite t val => Sys2Proof.Machine.execTcSendStallWrite t val s
  | .registerWrite t own off val => Sys2Proof.Machine.execRegisterWrite t own off val s
  | .zeroiseDone t => Sys2Proof.Machine.execZeroiseDone t s
  | .correctionWriteback t row => Sys2Proof.Machine.execCorrectionWriteback t row s
  | .scrubRead site bank up => Sys2Proof.Machine.execScrubRead site bank up s
  | .readReq pid => Sys2Proof.Machine.execReadReq pid s
  | .writeReq pid => Sys2Proof.Machine.execWriteReq pid s
  | .readRsp pid => Sys2Proof.Machine.execReadRsp pid s
  | .writeAck pid => Sys2Proof.Machine.execWriteAck pid s
  | .errorRsp pid => Sys2Proof.Machine.execErrorRsp pid s
  | .msg pid => Sys2Proof.Machine.execMsg pid s
  | .msgAck pid => Sys2Proof.Machine.execMsgAck pid s
  | .openReq pid => Sys2Proof.Machine.execOpenReq pid s
  | .openRsp pid => Sys2Proof.Machine.execOpenRsp pid s
  | .closeReq pid => Sys2Proof.Machine.execCloseReq pid s
  | .closeRsp pid => Sys2Proof.Machine.execCloseRsp pid s
  | .trainForward pid err ctlpErr => Sys2Proof.Machine.execTrainForward pid err ctlpErr s
  | .contextFlushEnd p => Sys2Proof.Machine.execContextFlushEnd p s
  | .dramRequest pid errs => Sys2Proof.Machine.execDramRequest pid errs s
  | .refreshWindow dc bank active => Sys2Proof.Machine.execRefreshWindow dc bank active s
  | .calibrationWindow ch active => Sys2Proof.Machine.execCalibrationWindow ch active s
  | .patrolScrub ch err => Sys2Proof.Machine.execPatrolScrub ch err s
  | .channelFailure ch => Sys2Proof.Machine.execChannelFailure ch s
  | .commitWithdrawal p => Sys2Proof.Machine.execCommitWithdrawal p s
  | .hostWindowRequest pid => Sys2Proof.Machine.execHostWindowRequest pid s
  | .hostCompletion port tag res => Sys2Proof.Machine.execHostCompletion port tag res s
  | .bar2Request f off len data => Sys2Proof.Machine.execBar2Request f off len data s
  | .sqTailDoorbell f qp tail cmds => Sys2Proof.Machine.execSqTailDoorbell f qp tail cmds s
  | .cqHeadDoorbell f qp head => Sys2Proof.Machine.execCqHeadDoorbell f qp head s
  | .completionEntry port qp => Sys2Proof.Machine.execCompletionEntry port qp s
  | .completionInterrupt port qp => Sys2Proof.Machine.execCompletionInterrupt port qp s
  | .loadConfig port qp host => Sys2Proof.Machine.execLoadConfig port qp host s
  | .launch port qp => Sys2Proof.Machine.execLaunch port qp s
  | .launchComplete p => Sys2Proof.Machine.execLaunchComplete p s
  | .copy port qp host => Sys2Proof.Machine.execCopy port qp host s
  | .stepCommit port qp => Sys2Proof.Machine.execStepCommit port qp s
  | .sqFence port qp => Sys2Proof.Machine.execSqFence port qp s
  | .signal port qp => Sys2Proof.Machine.execSignal port qp s
  | .signalOnStep port qp cid => Sys2Proof.Machine.execSignalOnStep port qp cid s
  | .perst port => Sys2Proof.Machine.execPerst port s
  | .perstRelease port => Sys2Proof.Machine.execPerstRelease port s
  | .hostWindowRegion w ix sub data => Sys2Proof.Machine.execHostWindowRegion w ix sub data s
  | .createPartition w data => Sys2Proof.Machine.execCreatePartition w data s
  | .releasePartition w data => Sys2Proof.Machine.execReleasePartition w data s
  | .movePartition w data => Sys2Proof.Machine.execMovePartition w data s
  | .transferPartition w data => Sys2Proof.Machine.execTransferPartition w data s
  | .bindContext w data => Sys2Proof.Machine.execBindContext w data s
  | .unbindContext w data => Sys2Proof.Machine.execUnbindContext w data s
  | .createQueuePair w data => Sys2Proof.Machine.execCreateQueuePair w data s
  | .deleteQueuePair w data => Sys2Proof.Machine.execDeleteQueuePair w data s
  | .allocateGranules w data => Sys2Proof.Machine.execAllocateGranules w data s
  | .releaseGranules w data => Sys2Proof.Machine.execReleaseGranules w data s
  | .interleaveMode w data => Sys2Proof.Machine.execInterleaveMode w data s
  | .queueSetup w data => Sys2Proof.Machine.execQueueSetup w data s
  | .slotMode w sub data => Sys2Proof.Machine.execSlotMode w sub data s
  | .reconfigurationMode w sub data => Sys2Proof.Machine.execReconfigurationMode w sub data s
  | .scaleTableDescriptor w sub data => Sys2Proof.Machine.execScaleTableDescriptor w sub data s
  | .scaleTableSnapshot w sub unstable => Sys2Proof.Machine.execScaleTableSnapshot w sub unstable s
  | .clearHistograms w data => Sys2Proof.Machine.execClearHistograms w data s
  | .protectedRegions w sub data => Sys2Proof.Machine.execProtectedRegions w sub data s
  | .connectionDescriptor w ix sub data => Sys2Proof.Machine.execConnectionDescriptor w ix sub data s
  | .aperture w ix sub data => Sys2Proof.Machine.execAperture w ix sub data s
  | .preferredReference w data => Sys2Proof.Machine.execPreferredReference w data s
  | .siteTest w data => Sys2Proof.Machine.execSiteTest w data s
  | .fieldTest w data => Sys2Proof.Machine.execFieldTest w data s
  | .dramCalibrationRequest w data => Sys2Proof.Machine.execDramCalibrationRequest w data s
  | .testResult k res ochre failed => Sys2Proof.Machine.execTestResult k res ochre failed s
  | .clearLatchedClasses w data => Sys2Proof.Machine.execClearLatchedClasses w data s
  | .contextResetWrite w data => Sys2Proof.Machine.execContextResetWrite w data s
  | .computeResetWrite w data => Sys2Proof.Machine.execComputeResetWrite w data s
  | .fullResetWrite w data => Sys2Proof.Machine.execFullResetWrite w data s
  | .contextResetDone p => Sys2Proof.Machine.execContextResetDone p s
  | .computeResetDone facts => Sys2Proof.Machine.execComputeResetDone facts s
  | .fullResetDone facts => Sys2Proof.Machine.execFullResetDone facts s
  | .resetEscalation => Sys2Proof.Machine.execResetEscalation s
  | .aceelRead h => Sys2Proof.Machine.execAceelRead h s
  | .aceelWrite h data => Sys2Proof.Machine.execAceelWrite h data s
  | .readBlock h => Sys2Proof.Machine.execReadBlock h s
  | .writeBlock h data => Sys2Proof.Machine.execWriteBlock h data s
  | .subscribe h period => Sys2Proof.Machine.execSubscribe h period s
  | .notify ep ix sub => Sys2Proof.Machine.execNotify ep ix sub s
  | .snapshotExpiry ep => Sys2Proof.Machine.execSnapshotExpiry ep s
  | .stagingExpiry ep => Sys2Proof.Machine.execStagingExpiry ep s
  | .hcMboxGo f frame => Sys2Proof.Machine.execHcMboxGo f frame s
  | .hcMboxDone f => Sys2Proof.Machine.execHcMboxDone f s
  | .hcMboxNotify f => Sys2Proof.Machine.execHcMboxNotify f s
  | .mailboxResponse f => Sys2Proof.Machine.execMailboxResponse f s
  | .setEndpointId port eid => Sys2Proof.Machine.execSetEndpointId port eid s
  | .getEndpointId port => Sys2Proof.Machine.execGetEndpointId port s
  | .getMctpVersionSupport port => Sys2Proof.Machine.execGetMctpVersionSupport port s
  | .getMessageTypeSupport port => Sys2Proof.Machine.execGetMessageTypeSupport port s
  | .getVendorDefinedMessageSupport port => Sys2Proof.Machine.execGetVendorDefinedMessageSupport port s
  | .getVersion port => Sys2Proof.Machine.execGetVersion port s
  | .getCapabilities port => Sys2Proof.Machine.execGetCapabilities port s
  | .negotiateAlgorithms port => Sys2Proof.Machine.execNegotiateAlgorithms port s
  | .getDigests port => Sys2Proof.Machine.execGetDigests port s
  | .getCertificate port slot off len => Sys2Proof.Machine.execGetCertificate port slot off len s
  | .challenge port slot nonce => Sys2Proof.Machine.execChallenge port slot nonce s
  | .getMeasurements port ix nonce => Sys2Proof.Machine.execGetMeasurements port ix nonce s
  | .neighborSolicitation node target => Sys2Proof.Machine.execNeighborSolicitation node target s
  | .pauseFrame eth => Sys2Proof.Machine.execPauseFrame eth s
  | .xdtMsg eth fr => Sys2Proof.Machine.execXdtMsg eth fr s
  | .xdtWrite eth fr => Sys2Proof.Machine.execXdtWrite eth fr s
  | .xdtReadReq eth fr => Sys2Proof.Machine.execXdtReadReq eth fr s
  | .xdtReadRsp eth fr => Sys2Proof.Machine.execXdtReadRsp eth fr s
  | .xdtAck eth fr => Sys2Proof.Machine.execXdtAck eth fr s
  | .xdtNak eth fr => Sys2Proof.Machine.execXdtNak eth fr s
  | .xdtCnp eth fr => Sys2Proof.Machine.execXdtCnp eth fr s
  | .xdtFrameSend conn => Sys2Proof.Machine.execXdtFrameSend conn s
  | .ackTimer conn => Sys2Proof.Machine.execAckTimer conn s
  | .retransmissionTimeout conn => Sys2Proof.Machine.execRetransmissionTimeout conn s
  | .restartTimer conn => Sys2Proof.Machine.execRestartTimer conn s
  | .autoRestart conn => Sys2Proof.Machine.execAutoRestart conn s
  | .rateIncrease conn => Sys2Proof.Machine.execRateIncrease conn s
  | .apertureRequest pid => Sys2Proof.Machine.execApertureRequest pid s
  | .ptpEventMessage eth ev => Sys2Proof.Machine.execPtpEventMessage eth ev s
  | .ethernetLinkChange eth up lanes => Sys2Proof.Machine.execEthernetLinkChange eth up lanes s
  | .referenceLoss which => Sys2Proof.Machine.execReferenceLoss which s
  | .cclkRestart p => Sys2Proof.Machine.execCclkRestart p s
  | .pllLockTimeout p f => Sys2Proof.Machine.execPllLockTimeout p f s
  | .syncPulse seen => Sys2Proof.Machine.execSyncPulse seen s
  | .syncPulseMissing => Sys2Proof.Machine.execSyncPulseMissing s
  | .governorCycle m => Sys2Proof.Machine.execGovernorCycle m s
  | .energyInterval m => Sys2Proof.Machine.execEnergyInterval m s
  | .inputFault => Sys2Proof.Machine.execInputFault s
  | .emergencyCap => Sys2Proof.Machine.execEmergencyCap s
  | .converterFailure => Sys2Proof.Machine.execConverterFailure s
  | .fieldSupplyTrip f cause => Sys2Proof.Machine.execFieldSupplyTrip f cause s
  | .droopTrip f det => Sys2Proof.Machine.execDroopTrip f det s
  | .droopRamp f blk => Sys2Proof.Machine.execDroopRamp f blk s
  | .thermalReading temps => Sys2Proof.Machine.execThermalReading temps s
  | .thermalRecovery f => Sys2Proof.Machine.execThermalRecovery f s
  | .blockClockRestart f blk => Sys2Proof.Machine.execBlockClockRestart f blk s
  | .laneCompareStep bundle disagree => Sys2Proof.Machine.execLaneCompareStep bundle disagree s
  | .walkStepDue g crcBad => Sys2Proof.Machine.execWalkStepDue g crcBad s
  | .forcedRotationWindow p crcBad => Sys2Proof.Machine.execForcedRotationWindow p crcBad s
  | .visitComplete f row v fmax => Sys2Proof.Machine.execVisitComplete f row v fmax s
  | .eventForward t bit => Sys2Proof.Machine.execEventForward t bit s
  | .heartbeat heard => Sys2Proof.Machine.execHeartbeat heard s
  | .controllerHang f => Sys2Proof.Machine.execControllerHang f s
  | .bootMasterFailover => Sys2Proof.Machine.execBootMasterFailover s
  | .pwrEnHigh facts => Sys2Proof.Machine.execPwrEnHigh facts s
  | .bootReady facts => Sys2Proof.Machine.execBootReady facts s
  | .pwrEnLow => Sys2Proof.Machine.execPwrEnLow s
  | .forceOffN => Sys2Proof.Machine.execForceOffN s
  | .imageWrite w image => Sys2Proof.Machine.execImageWrite w image s
  | .commitSvn w data => Sys2Proof.Machine.execCommitSvn w data s
  | .ownerKeySlot w sub data => Sys2Proof.Machine.execOwnerKeySlot w sub data s
  | .debugPolicy w data => Sys2Proof.Machine.execDebugPolicy w data s
  | .setSlot w data => Sys2Proof.Machine.execSetSlot w data s
  | .clearSlot w data => Sys2Proof.Machine.execClearSlot w data s
  | .setDebugPolicy w data => Sys2Proof.Machine.execSetDebugPolicy w data s
  | .restoreDefaults w data => Sys2Proof.Machine.execRestoreDefaults w data s
  | .debugUnlock key sig => Sys2Proof.Machine.execDebugUnlock key sig s
  | .unlockComplete => Sys2Proof.Machine.execUnlockComplete s
  | .referenceReturn which => Sys2Proof.Machine.execReferenceReturn which s
  | .operatingPointCclkStop p => Sys2Proof.Machine.execOperatingPointCclkStop p s
  | .mldbAccComplete t => Sys2Proof.Machine.execMldbAccComplete t s
  | .detourLineRead t => Sys2Proof.Machine.execDetourLineRead t s
  | .controllerRestarted f => Sys2Proof.Machine.execControllerRestarted f s
  | .hcAperture f val => Sys2Proof.Machine.execHcAperture f val s
  | .functionReset f => Sys2Proof.Machine.execFunctionReset f s
  | .vfEnable port n => Sys2Proof.Machine.execVfEnable port n s

end Sys2Proof.Machine
end

