-- ==== Sys2Proof/Machine/TileDecode.lean ====
section
/-!
DEFINITION. The tile instruction words that a control core fetches from a slot's instruction buffer (R77 to R79, Tables 3.1
to 3.20): the command that a word pair spells for a tile, or none for an undefined encoding. The commands carry the same
operand fields, and judge codes that their row does not accept (a format, a lane type, a slot above 3) themselves; a
scratchpad read that the core's own fetch starts meets no upset (log entry 4).
-/
namespace Sys2Proof.Machine

/-! ### Fields (Table 3.1) -/

def wMaj (w : Word32) : Nat := (w.extractLsb' 2 5).toNat
def wD (w : Word32) : Reg := w.extractLsb' 7 5
def wSA (w : Word32) : Reg := w.extractLsb' 12 5
def wSB (w : Word32) : Reg := w.extractLsb' 17 5
def wFn (w : Word32) : Nat := (w.extractLsb' 22 10).toNat
def wF3 (w : Word32) : Nat := (w.extractLsb' 17 3).toNat
def wImm12 (w : Word32) : BitVec 12 := w.extractLsb' 20 12
def wVop (w : Word32) : Nat := (w.extractLsb' 27 5).toNat
def wTy (w : Word32) : Ty := w.extractLsb' 24 3

/-- A row holds only where its reserved fields are zero (R79). -/
def onlyIf (c : Bool) (i : Instr) : Option Instr := if c then some i else none

/-- Reserved register fields. -/
def zD (w : Word32) : Bool := decide (wD w = 0)
def zSA (w : Word32) : Bool := decide (wSA w = 0)
def zSB (w : Word32) : Bool := decide (wSB w = 0)

/-- Bits of the extension that no field of the row uses are zero. -/
def zX (x : Ext) (mask : Word32) : Bool := decide (x &&& mask = 0)

/-! ### Format A, I and B: one word -/

/-- Table 3.4. -/
def decodeAlu (t : XY) (w : Word32) : Option Instr :=
  let d := wD w
  let a := wSA w
  let b := wSB w
  match wFn w with
  | 0x000 => some (.add t d a b)
  | 0x001 => some (.sub t d a b)
  | 0x002 => some (.and t d a b)
  | 0x003 => some (.or t d a b)
  | 0x004 => some (.xor t d a b)
  | 0x005 => some (.sll t d a b)
  | 0x006 => some (.srl t d a b)
  | 0x007 => some (.sra t d a b)
  | 0x008 => some (.slt t d a b)
  | 0x009 => some (.sltu t d a b)
  | 0x00A => some (.min t d a b)
  | 0x00B => some (.max t d a b)
  | 0x00C => some (.minu t d a b)
  | 0x00D => some (.maxu t d a b)
  | 0x00E => some (.sel t d a b)
  | 0x010 => some (.mul t d a b)
  | 0x011 => some (.mulh t d a b)
  | 0x012 => some (.mulhu t d a b)
  | 0x014 => some (.div t d a b)
  | 0x015 => some (.divu t d a b)
  | 0x016 => some (.rem t d a b)
  | 0x017 => some (.remu t d a b)
  | 0x018 => onlyIf (zSB w) (.clz t d a)
  | 0x019 => onlyIf (zSB w) (.popc t d a)
  | _ => none

/-- Table 3.5: the selector is F3 in Format I, FN in Format L. -/
def aluImmOf (t : XY) (d a : Reg) (n : Nat) (i : Imm) : Option Instr :=
  match n with
  | 0 => some (.addi t d a i)
  | 1 => some (.andi t d a i)
  | 2 => some (.ori t d a i)
  | 3 => some (.xori t d a i)
  | 4 => some (.slli t d a i)
  | 5 => some (.srli t d a i)
  | 6 => some (.srai t d a i)
  | 7 => some (.slti t d a i)
  | _ => none

/-- Table 3.6. -/
def decodeBranch (t : XY) (w : Word32) : Option Instr :=
  let r := wD w
  let a := wSA w
  let o := wImm12 w
  match wF3 w with
  | 0 => some (.beq t a r o)
  | 1 => some (.bne t a r o)
  | 2 => some (.blt t a r o)
  | 3 => some (.bge t a r o)
  | 4 => some (.bltu t a r o)
  | 5 => some (.bgeu t a r o)
  | 6 => onlyIf (zSA w) (.jal t r o)
  | _ => some (.jalr t r a o)

/-- Table 3.7. -/
def loadStoreOf (t : XY) (d a : Reg) (n : Nat) (i : Imm) : Option Instr :=
  match n with
  | 0 => some (.lb t d a i .none)
  | 1 => some (.lh t d a i .none)
  | 2 => some (.lw t d a i .none)
  | 3 => some (.ld t d a i .none)
  | 4 => some (.sb t ⟨d, none⟩ a i)
  | 5 => some (.sh t ⟨d, none⟩ a i)
  | 6 => some (.sw t ⟨d, none⟩ a i)
  | 7 => some (.sd t ⟨d, none⟩ a i)
  | _ => none

/-- Table 3.11; bits [23:22] are reserved. -/
def decodeVec (t : XY) (w : Word32) : Option Instr :=
  let d := wD w
  let a := wSA w
  let b := wSB w
  let y := wTy w
  if w.extractLsb' 22 2 = 0#2 then
    match wVop w with
    | 0x00 => some (.vadd t d a b y)
    | 0x01 => some (.vsub t d a b y)
    | 0x02 => some (.vmul t d a b y)
    | 0x03 => some (.vfma t d a b y)
    | 0x04 => some (.vmax t d a b y)
    | 0x05 => some (.vmin t d a b y)
    | 0x06 => onlyIf (zSB w) (.vabs t d a y)
    | 0x07 => onlyIf (zSB w) (.vneg t d a y)
    | 0x08 => some (.vand t d a b y)
    | 0x09 => some (.vor t d a b y)
    | 0x0A => some (.vxor t d a b y)
    | 0x0B => some (.vsll t d a b y)
    | 0x0C => some (.vsrl t d a b y)
    | 0x0D => some (.vsra t d a b y)
    | 0x0E => some (.vsel t d a b y)
    | 0x0F => some (.vcmplt t d a b y)
    | 0x11 => onlyIf (zSB w) (.vbcast t d a y)
    | 0x12 => some (.vext t d a b y)
    | 0x14 => onlyIf (zSB w) (.vmov t d a y)
    | _ => none
  else none

/-- Table 3.19. -/
def decodeConfig (t : XY) (w : Word32) : Option Instr :=
  let d := wD w
  let a := wSA w
  let b := wSB w
  match wFn w with
  | 0 => onlyIf (zSB w) (.csw t d a)
  | 1 => some (.cload t d ⟨a, false⟩ b)
  | 2 => onlyIf (zSA w) (.cflush t d b)
  | 3 => onlyIf (zSA w) (.cflushQ t ⟨d, false⟩ b)
  | 4 => some (.epoch t d a b)
  | _ => none

/-- Table 3.20. -/
def decodeSystem (t : XY) (w : Word32) : Option Instr :=
  let d := wD w
  let a := wSA w
  match wFn w with
  | 0 => onlyIf (zSA w && zSB w) (.step t d)
  | 1 => onlyIf (zD w && zSB w) (.phase t a)
  | 2 => onlyIf (zSA w && zSB w) (.gtc t d)
  | 3 => onlyIf (zD w && zSB w) (.evt t a)
  | 4 => onlyIf (zSB w) (.fence t d a)
  | 5 => onlyIf (zD w && zSA w && zSB w) (.halt t)
  | _ => none

/-- A 32-bit instruction, by its major opcode (Table 3.2). -/
def decodeShort (t : XY) (w : Word32) : Option Instr :=
  match wMaj w with
  | 0x00 => decodeAlu t w
  | 0x01 => aluImmOf t (wD w) (wSA w) (wF3 w) (.short (wImm12 w))
  | 0x02 => decodeBranch t w
  | 0x03 => loadStoreOf t (wD w) (wSA w) (wF3 w) (.short (wImm12 w))
  | 0x08 => decodeVec t w
  | 0x1A => decodeConfig t w
  | 0x1C => decodeSystem t w
  | _ => none

/-! ### Format L: two words -/

/-- Table 3.5, Format L, with LIH. -/
def decodeAluLong (t : XY) (w : Word32) (x : Ext) : Option Instr :=
  if zSB w then
    if wFn w = 8 then some (.lih t (wD w) (wSA w) x) else aluImmOf t (wD w) (wSA w) (wFn w) (.long x)
  else none

/-- Table 3.7, Format L, with the zero-extending loads. -/
def decodeLoadLong (t : XY) (w : Word32) (x : Ext) : Option Instr :=
  let d := wD w
  let a := wSA w
  if zSB w then
    match wFn w with
    | 8 => some (.lbu t d a x .none)
    | 9 => some (.lhu t d a x .none)
    | 10 => some (.lwu t d a x .none)
    | n => loadStoreOf t d a n (.long x)
  else none

/-- Table 3.8: X[31:8] OFF, X[7:3] reserved, X[2] U, X[1:0] SZ. -/
def decodeGlobal (t : XY) (w : Word32) (x : Ext) : Option Instr :=
  let d := wD w
  let a := wSA w
  match wFn w with
  | 0 => onlyIf (zSB w && zX x 0xF8) (.gld t d a (x.extractLsb' 8 24) (x.getLsbD 2) (x.extractLsb' 0 2))
  | 1 => onlyIf (zSB w && zX x 0xF8) (.gst t d a (x.extractLsb' 8 24) (x.extractLsb' 0 2))
  | 2 => onlyIf (zX x 0xFFFFFFFF) (.gdmaGet t d a (wSB w))
  | 3 => onlyIf (zX x 0xFFFFFFFF) (.gdmaPut t d a (wSB w))
  | _ => none

/-- Table 3.12. -/
def decodeVecLong (t : XY) (w : Word32) (x : Ext) : Option Instr :=
  let d := wD w
  let a := wSA w
  let b := wSB w
  let fmt := x.extractLsb' 27 5
  let ty := x.extractLsb' 23 3
  let gs := x.extractLsb' 18 5
  match wFn w with
  | 0 => onlyIf (zSB w) (.vld t d a x .none)
  | 1 => onlyIf (zSB w) (.vst t ⟨d, none⟩ a x)
  | 2 => onlyIf (zX x 0x3FFFF) (.vqz t d a b fmt (x.getLsbD 26) ty gs)
  | 3 => onlyIf (zX x 0x403FFFF) (.vdq t d a b fmt ty gs)
  | 4 => onlyIf (zSB w && zX x 0xFC7FFFFF) (.vamax t d a ty)
  | 5 => onlyIf (zX x 0xFFFFFFFF) (.vupdc t d a b)
  | 6 => onlyIf (zSB w && zX x 0xF80FFFFF) (.vcvt t d a (x.getLsbD 26) ty (x.extractLsb' 20 3))
  | _ => none

/-- Table 3.13. -/
def decodeMatrix (t : XY) (w : Word32) (x : Ext) : Option Instr :=
  let d := wD w
  let a := wSA w
  let b := wSB w
  match wFn w with
  | 0 => onlyIf (zSA w && zSB w && zX x 0x3FFF)
      (.mcfg t d (x.extractLsb' 27 5) (x.extractLsb' 22 5) (x.extractLsb' 14 8))
  | 1 => onlyIf (zD w && zX x 0xFFFFFFFE) (.mldb t ⟨a, false⟩ b (x.getLsbD 0))
  | 2 => onlyIf (zD w && zX x 0xFFFE0000) (.mma t a b (x.extractLsb' 0 16) (x.getLsbD 16))
  | 3 => onlyIf (zD w && zSA w && zSB w && zX x 0xFFFFFFFF) (.mswap t)
  | 4 => onlyIf (zX x 0x3FFFFFF) (.mdrain t ⟨d, none⟩ a b (x.extractLsb' 27 5) (x.getLsbD 26))
  | _ => none

/-- Table 3.17. -/
def decodeQueue (t : XY) (w : Word32) (x : Ext) : Option Instr :=
  let d := wD w
  let a := wSA w
  let b := wSB w
  let ch := x.extractLsb' 0 5
  let q := x.extractLsb' 0 4
  match wFn w with
  | 0 => onlyIf (zX x 0xFFFFFFC0) (.qopen t d a b ch (x.getLsbD 5))
  | 1 => onlyIf (zX x 0xFFFFFFE0) (.qsend t d a b ch)
  | 2 => onlyIf (zSA w && zSB w && zX x 0xFFFFFFF0) (.qwait t ⟨d, false⟩ q)
  | 3 => onlyIf (zSA w && zSB w && zX x 0xFFFFFFF0) (.qpeek t ⟨d, false⟩ q)
  | 4 => onlyIf (zSA w && zSB w && zX x 0xFFFFFFF0) (.qpop t ⟨d, false⟩ q)
  | 5 => onlyIf (zSA w && zSB w && zX x 0xFFFFFFE0) (.qclose t d ch)
  | _ => none

/-- Table 3.18. -/
def decodeStream (t : XY) (w : Word32) (x : Ext) : Option Instr :=
  let d := wD w
  let a := wSA w
  let b := wSB w
  let p := x.extractLsb' 0 2
  match wFn w with
  | 0 => onlyIf (zSA w && zSB w && zX x 0xFFFFFF00) (.sget t d p (x.getLsbD 2) (x.extractLsb' 3 5))
  | 1 => onlyIf (zSA w && zSB w && zX x 0xFFFFFEF8) (.sput t d p (x.getLsbD 2) (x.getLsbD 8))
  | 2 => onlyIf (zX x 0xFFFFFFFC) (.sgetm t ⟨d, none⟩ a b p)
  | 3 => onlyIf (zX x 0xFFFFFEFC) (.sputm t d a b p (x.getLsbD 8))
  | 4 => onlyIf (zSA w && zX x 0xFFFFF9FC) (.spass t d b p (x.extractLsb' 9 2))
  | _ => none

/-- A 64-bit instruction, by its major opcode (Table 3.2). -/
def decodeLong (t : XY) (w : Word32) (x : Ext) : Option Instr :=
  match wMaj w with
  | 0x01 => decodeAluLong t w x
  | 0x03 => decodeLoadLong t w x
  | 0x04 => decodeGlobal t w x
  | 0x08 => decodeVecLong t w x
  | 0x10 => decodeMatrix t w x
  | 0x18 => decodeQueue t w x
  | 0x19 => decodeStream t w x
  | _ => none

/-- The instruction that the word w, followed by x, spells for tile t (R78); none: undefined. -/
def decodeTile (t : XY) (w x : Word32) : Option Instr :=
  match (w.extractLsb' 0 2).toNat with
  | 0 => decodeShort t w
  | 3 => decodeLong t w x
  | _ => none

/-- Words that an instruction beginning with w occupies (R77, R78). -/
def tileWords (w : Word32) : Nat := if (w.extractLsb' 0 2).toNat = 3 then 2 else 1

end Sys2Proof.Machine
end

