-- ==== Sys2Proof/Machine/Tick.lean ====
section
/-!
DEFINITION. One TCLK cycle, which the block takes when no command waits (log entry 4): the GTC (R373, R374), the field cycle
counts (R364), the cycle counters of running tiles (Table 2.13), and one instruction of the core whose turn it is, fetched
from its active slot's instruction buffer (R45, R77, R78).
-/
namespace Sys2Proof.Machine

/-! ### Time -/

/-- What a copy of the GTC gains in one TCLK cycle, in 2^-32 ns: 2 × (1 + a·2^-32) ns (R374). -/
def gtcStep (a : Int) : Nat := (2 ^ 33 + 2 * a).toNat

/-- The common count with its fraction after one cycle; the count is 64 bits wide (R373). -/
def Clocks.advance (c : Clocks) (a : Int) : Clocks :=
  let f := c.frac + gtcStep a
  { c with
    gtc := (c.gtc + f / 2 ^ 32) % 2 ^ 64
    frac := f % 2 ^ 32 }

/-- CCLK cycles in two TCLK cycles at an operating point (Table 14.3). -/
def cclkPerTwo (op : Nat) : Nat :=
  match op with
  | 0 => 12
  | 1 => 10
  | 2 => 9
  | 3 => 8
  | _ => 6

/-- CCLK runs in a field: it is powered, PLL-C is locked, and neither an operating-point change nor the loss of both
references stops it (R361, R364, R367). -/
def cclkRuns (s : State) (f : Nat) : Bool :=
  fieldAlive s f && (getField s f).pllC && !(getField s f).stopped && !s.clk.lost

/-- CCLK cycles of a field in this TCLK cycle: every second one takes the odd cycle of OP2 (R364). -/
def Field.cyclesNow (D : Field) : Nat := (cclkPerTwo D.op + b2n D.half) / 2

/-- What a copy holds beyond the common count after a cycle in which that rose by `gain` (R375): a copy that is held waits
until time reaches it; a difference of at most 4 ns goes by 1 ns each time the common count passes a multiple of 2^18
(`pass`), so within 2^20 ns (log entry 102). -/
def Field.slewed (D : Field) (gain : Nat) (pass : Bool) : Field :=
  if D.gtcHeld then
    let d := max 0 (D.gtcOff - Int.ofNat gain)
    { D with gtcOff := d, gtcHeld := decide (0 < d) }
  else if pass then { D with gtcOff := if 0 < D.gtcOff then D.gtcOff - 1 else if D.gtcOff < 0 then D.gtcOff + 1 else 0 }
  else D

/-- A cycle with c = 0 lies in the next n cycles of a count (R63). -/
def hasC0 (cyc : Word64) (n : Nat) : Bool := decide (0 < n) && decide (cyc.toNat % 16 = 0 || 16 < cyc.toNat % 16 + n)

/-- In the field's first cycle with c = 0 the issue caps decided take effect, but for a field whose operating point is being changed,
and blocks that are cool enough restart (R386, R392). -/
def atC0 (s : State) (f : Nat) : State :=
  forAll (fun s n => restartBlock s f n) (List.range 16) (if changing s f then s else takeCap s f)

/-- The interval counts of scrub advance in the blocks whose CCLK runs (R215). -/
def tickBlocks (s : State) (f n : Nat) : State :=
  forAll (fun s b =>
    let v := getBlock s b
    if v.stopped then s else setBlock s b { v with pace := v.pace + BitVec.ofNat 20 n }) ((List.range 16).map (16 * f + ·)) s

/-- The zeroises of vacated sites go on for n cycles of CCLK, where it runs (R74). -/
def tickSites (s : State) (f n : Nat) : State :=
  forAll (fun s (e : Nat × Site) =>
    let a := SiteId.ofKey e.1
    setSite s a { (getSite s a) with zeroLeft := (getSite s a).zeroLeft - n })
    (s.sites.filter (fun e => decide (e.2.zeroLeft ≠ 0) && decide (e.1 / 272 = f) && !(getBlock s (SiteId.ofKey e.1).block).stopped)) s

/-- A field's copy and its field cycle count advance (R364, R375). -/
def tickField (gain : Nat) (pass : Bool) (s : State) (f : Nat) : State :=
  let D := (getField s f).slewed gain pass
  if cclkRuns s f then
    let s := if hasC0 D.cyc D.cyclesNow then atC0 s f else s
    let s := tickSites (tickBlocks s f D.cyclesNow) f D.cyclesNow
    modField s f (fun E => { E with
      gtcOff := D.gtcOff, gtcHeld := D.gtcHeld
      cyc := D.cyc + BitVec.ofNat 64 D.cyclesNow
      half := (cclkPerTwo D.op + b2n D.half) % 2 = 1 })
  else setField s f D

/-- A running tile counts its cycles: TC_SLOTCYC of the active slot, and TC_ACT7 while the core is held at issue. -/
def Tile.countCycles (T : Tile) (n : Nat) : Tile :=
  let T := { T with
    slotCyc := mset 0 T.slotCyc T.active.toNat (mget 0 T.slotCyc T.active.toNat + BitVec.ofNat 64 n) }
  if T.st = .wait ∨ T.st = .barrier then T.addAct 7 n else T

def tickTile (s : State) (k : Nat) : State :=
  let t := XY.ofKey k
  if tileLive s t && (getTile s t).run && cclkRuns s t.field && clockOn s t then
    modTile s t (fun T => T.countCycles (getField s t.field).cyclesNow)
  else s

/-- Operating time, of which 0x1000:08 shows the hours: TCLK cycles of 2 ns (Table 13.8). -/
def Power.count (p : Power) : Power :=
  if p.upNs + 2 < 3600000000000 then { p with upNs := p.upNs + 2 } else { p with upNs := 0, hours := p.hours + 1 }

/-- TCLK advances everything it drives. -/
def tickTime (s : State) : State :=
  let c := s.clk.advance s.xdt.rateAdj
  let gain := c.gtc - s.clk.gtc
  let pass := decide (c.gtc / 2 ^ 18 ≠ s.clk.gtc / 2 ^ 18)
  let s := forAll tickTile (s.tiles.map (fun e => e.1)) s
  let s := forAll (tickField gain pass) (List.range 49) s
  { s with clk := c, power := s.power.count }

/-! ### Fetch (R45, R77, R78) -/

/-- A word of the active slot's instruction buffer. -/
def Tile.fetch (T : Tile) (n : Nat) : Word32 := mget 0 T.activeSlot.ibuf n

/-- The core of a tile, where it may issue, takes the instruction at its program counter: a fetch beyond word 0xFFF and an
undefined encoding fault (R79, Table 3.21). -/
def runCore (s : State) (t : XY) : Out :=
  if canIssue s t then
    let T := getTile s t
    let p := T.pc.toNat
    if 4096 < p + tileWords (T.fetch p) then .next (faultCore s t evAddrFault)
    else
      match decodeTile t (T.fetch p) (T.fetch (p + 1)) with
      | none => .next (faultCore s t evAddrFault)
      | some i => exec i s
  else .next s

/-- One TCLK cycle with no command waiting: time passes, and the core whose turn it is runs one instruction. -/
def tick (s : State) : Out :=
  let s := bootTick s
  if tclkRuns s then
    let t := XY.ofKey s.turn
    runCore (tickTime { s with turn := (s.turn + 1) % 12544 }) t
  else .next s

end Sys2Proof.Machine
end

