-- ==== Sys2Proof/Laws/Store.lean ====
section
/-!
SUPPORT. The laws of sparse maps and of memory: a read after a write, and that every operation keeps the canonical form.
-/
namespace Sys2Proof.Machine

variable {α : Type}

/-! ### Rising keys -/

theorem mrising_cons (p : Nat × α) (m : SMap α) :
    mrising (p :: m) = true ↔ (∀ e ∈ m, p.1 < e.1) ∧ mrising m = true := by
  induction m generalizing p with
  | nil => simp [mrising]
  | cons q r ih =>
    obtain ⟨a, x⟩ := p
    obtain ⟨b, y⟩ := q
    have := ih (b, y)
    simp only [mrising, Bool.and_eq_true, decide_eq_true_eq, List.mem_cons, forall_eq_or_imp] at *
    constructor
    · rintro ⟨h, hr⟩
      exact ⟨⟨h, fun e he => Nat.lt_trans h (((this.1 hr).1) e he)⟩, hr⟩
    · rintro ⟨⟨h, _⟩, hr⟩
      exact ⟨h, hr⟩

theorem mem_mput {m : SMap α} {k : Nat} {v : α} {e : Nat × α} (h : e ∈ mput m k v) : e = (k, v) ∨ e ∈ m := by
  induction m with
  | nil => simpa [mput] using h
  | cons q r ih =>
    obtain ⟨b, y⟩ := q
    simp only [mput] at h
    split at h
    · simpa using h
    · split at h
      · rcases List.mem_cons.1 h with h | h
        · exact .inl h
        · exact .inr (List.mem_cons_of_mem _ h)
      · rcases List.mem_cons.1 h with h | h
        · exact .inr (h ▸ List.mem_cons_self)
        · rcases ih h with h | h
          · exact .inl h
          · exact .inr (List.mem_cons_of_mem _ h)

theorem mem_mdel {m : SMap α} {k : Nat} {e : Nat × α} (h : e ∈ mdel m k) : e ∈ m := by
  induction m with
  | nil => simp [mdel] at h
  | cons q r ih =>
    obtain ⟨b, y⟩ := q
    simp only [mdel] at h
    split at h
    · exact List.mem_cons_of_mem _ h
    · rcases List.mem_cons.1 h with h | h
      · exact h ▸ List.mem_cons_self
      · exact List.mem_cons_of_mem _ (ih h)

theorem mrising_mput {m : SMap α} (h : mrising m = true) (k : Nat) (v : α) : mrising (mput m k v) = true := by
  induction m with
  | nil => rfl
  | cons q r ih =>
    obtain ⟨b, y⟩ := q
    have hq := (mrising_cons _ _).1 h
    simp only [mput]
    split
    · rename_i hk
      refine (mrising_cons _ _).2 ⟨?_, h⟩
      intro e he
      rcases List.mem_cons.1 he with he | he
      · exact he ▸ hk
      · exact Nat.lt_trans hk (hq.1 e he)
    · split
      · rename_i hk
        exact (mrising_cons _ _).2 ⟨by intro e he; exact hk ▸ hq.1 e he, hq.2⟩
      · rename_i h1 h2
        refine (mrising_cons _ _).2 ⟨?_, ih hq.2⟩
        intro e he
        rcases mem_mput he with he | he
        · subst he; simp only; omega
        · exact hq.1 e he

theorem mrising_mdel {m : SMap α} (h : mrising m = true) (k : Nat) : mrising (mdel m k) = true := by
  induction m with
  | nil => rfl
  | cons q r ih =>
    obtain ⟨b, y⟩ := q
    have hq := (mrising_cons _ _).1 h
    simp only [mdel]
    split
    · exact hq.2
    · exact (mrising_cons _ _).2 ⟨fun e he => hq.1 e (mem_mdel he), ih hq.2⟩

/-! ### Reads after writes -/

theorem mget_above {d : α} {m : SMap α} {k : Nat} (h : ∀ e ∈ m, k < e.1) : mget d m k = d := by
  induction m with
  | nil => rfl
  | cons q r ih =>
    obtain ⟨b, y⟩ := q
    have hb : k < b := h (b, y) List.mem_cons_self
    simp only [mget]
    rw [if_neg (by omega)]
    exact ih (fun e he => h e (List.mem_cons_of_mem _ he))

@[simp] theorem mget_mput_self (d : α) (m : SMap α) (k : Nat) (v : α) : mget d (mput m k v) k = v := by
  induction m with
  | nil => simp [mput, mget]
  | cons q r ih =>
    obtain ⟨b, y⟩ := q
    simp only [mput]
    split
    · simp [mget]
    · split
      · simp [mget]
      · rename_i h1 h2
        simp only [mget]
        rw [if_neg (fun h => h2 h.symm)]
        exact ih

theorem mget_mput_ne (d : α) (m : SMap α) {k k' : Nat} (v : α) (h : k' ≠ k) : mget d (mput m k v) k' = mget d m k' := by
  induction m with
  | nil =>
    simp only [mput, mget]
    rw [if_neg (fun e => h e.symm)]
  | cons q r ih =>
    obtain ⟨b, y⟩ := q
    simp only [mput]
    split
    · simp only [mget]
      rw [if_neg (fun e => h e.symm)]
    · split
      · rename_i h1 h2
        simp only [mget]
        rw [if_neg (fun e => h e.symm), if_neg (fun e => h (e.symm.trans h2.symm))]
      · simp only [mget, ih]

theorem mget_mdel_ne (d : α) (m : SMap α) {k k' : Nat} (h : k' ≠ k) : mget d (mdel m k) k' = mget d m k' := by
  induction m with
  | nil => rfl
  | cons q r ih =>
    obtain ⟨b, y⟩ := q
    simp only [mdel]
    split
    · rename_i hb
      simp only [mget]
      rw [if_neg (fun e => h (e.symm.trans hb))]
    · simp only [mget, ih]

theorem mget_mdel_self (d : α) {m : SMap α} (hm : mrising m = true) (k : Nat) : mget d (mdel m k) k = d := by
  induction m with
  | nil => rfl
  | cons q r ih =>
    obtain ⟨b, y⟩ := q
    have hq := (mrising_cons _ _).1 hm
    simp only [mdel]
    split
    · rename_i hb
      exact mget_above (fun e he => hb ▸ hq.1 e he)
    · rename_i hb
      simp only [mget]
      rw [if_neg hb]
      exact ih hq.2

section
variable [DecidableEq α]

theorem mget_mset_self (d : α) {m : SMap α} (hm : mrising m = true) (k : Nat) (v : α) : mget d (mset d m k v) k = v := by
  unfold mset
  split
  · rename_i h
    rw [mget_mdel_self d hm, h]
  · simp

theorem mget_mset_ne (d : α) (m : SMap α) {k k' : Nat} (v : α) (h : k' ≠ k) : mget d (mset d m k v) k' = mget d m k' := by
  unfold mset
  split
  · exact mget_mdel_ne d m h
  · exact mget_mput_ne d m v h

/-! ### The canonical form -/

theorem mwf_iff (d : α) (m : SMap α) : mwf d m = true ↔ mrising m = true ∧ ∀ e ∈ m, e.2 ≠ d := by
  simp [mwf]

theorem mwf_rising {d : α} {m : SMap α} (h : mwf d m = true) : mrising m = true := ((mwf_iff d m).1 h).1

@[simp] theorem mwf_nil (d : α) : mwf d ([] : SMap α) = true := rfl

theorem mwf_mput {d : α} {m : SMap α} (h : mwf d m = true) (k : Nat) {v : α} (hv : v ≠ d) : mwf d (mput m k v) = true := by
  rw [mwf_iff] at *
  refine ⟨mrising_mput h.1 k v, ?_⟩
  intro e he
  rcases mem_mput he with he | he
  · subst he; exact hv
  · exact h.2 e he

theorem mwf_mdel {d : α} {m : SMap α} (h : mwf d m = true) (k : Nat) : mwf d (mdel m k) = true := by
  rw [mwf_iff] at *
  exact ⟨mrising_mdel h.1 k, fun e he => h.2 e (mem_mdel he)⟩

theorem mwf_mset {d : α} {m : SMap α} (h : mwf d m = true) (k : Nat) (v : α) : mwf d (mset d m k v) = true := by
  unfold mset
  split
  · exact mwf_mdel h k
  · exact mwf_mput h k ‹_›

theorem mem_mset {d : α} {m : SMap α} {k : Nat} {v : α} {e : Nat × α} (h : e ∈ mset d m k v) : e = (k, v) ∨ e ∈ m := by
  unfold mset at h
  split at h
  · exact .inr (mem_mdel h)
  · exact mem_mput h

omit [DecidableEq α] in
theorem mget_mem {d : α} {m : SMap α} {k : Nat} : mget d m k = d ∨ (k, mget d m k) ∈ m := by
  induction m with
  | nil => exact .inl rfl
  | cons q r ih =>
    obtain ⟨b, y⟩ := q
    simp only [mget]
    split
    · rename_i h
      exact .inr (by simp [h])
    · rcases ih with h | h
      · exact .inl h
      · exact .inr (List.mem_cons_of_mem _ h)

/-- Two canonical maps that read alike at every key are equal data. -/
theorem mwf_ext {d : α} {a b : SMap α} (ha : mwf d a = true) (hb : mwf d b = true)
    (h : ∀ k, mget d a k = mget d b k) : a = b := by
  induction a generalizing b with
  | nil =>
    cases b with
    | nil => rfl
    | cons q r =>
      exfalso
      have := h q.1
      have hq := ((mwf_iff _ _).1 hb).2 q List.mem_cons_self
      simp only [mget, if_true] at this
      exact hq this.symm
  | cons p r ih =>
    have hp := (mrising_cons _ _).1 (mwf_rising ha)
    have hpv := ((mwf_iff _ _).1 ha).2 p List.mem_cons_self
    cases b with
    | nil =>
      exfalso
      have := h p.1
      simp only [mget, if_true] at this
      exact hpv this
    | cons q t =>
      have hq := (mrising_cons _ _).1 (mwf_rising hb)
      have hqv := ((mwf_iff _ _).1 hb).2 q List.mem_cons_self
      have hk : p.1 = q.1 := by
        rcases Nat.lt_trichotomy p.1 q.1 with hlt | heq | hlt
        · exfalso
          have := h p.1
          have h2 : mget d (q :: t) p.1 = d := mget_above (by
            intro e he
            rcases List.mem_cons.1 he with he | he
            · exact he ▸ hlt
            · exact Nat.lt_trans hlt (hq.1 e he))
          rw [h2] at this
          simp only [mget, if_true] at this
          exact hpv this
        · exact heq
        · exfalso
          have := h q.1
          have h2 : mget d (p :: r) q.1 = d := mget_above (by
            intro e he
            rcases List.mem_cons.1 he with he | he
            · exact he ▸ hlt
            · exact Nat.lt_trans hlt (hp.1 e he))
          rw [h2] at this
          simp only [mget, if_true] at this
          exact hqv this.symm
      have hv : p.2 = q.2 := by
        have := h p.1
        simp only [mget, if_true] at this
        rw [if_pos hk.symm] at this
        exact this
      have hpq : p = q := Prod.ext hk hv
      subst hpq
      congr 1
      refine ih ?_ ?_ ?_
      · rw [mwf_iff]
        exact ⟨hp.2, fun e he => ((mwf_iff _ _).1 ha).2 e (List.mem_cons_of_mem _ he)⟩
      · rw [mwf_iff]
        exact ⟨hq.2, fun e he => ((mwf_iff _ _).1 hb).2 e (List.mem_cons_of_mem _ he)⟩
      · intro k
        by_cases hkp : p.1 = k
        · subst hkp
          rw [mget_above hp.1, mget_above hq.1]
        · have := h k
          simp only [mget] at this
          rwa [if_neg hkp, if_neg hkp] at this

end

/-! ### Memory -/

theorem Memory.wf_setByte {m : Memory} (h : m.wf = true) (a : Nat) (b : Byte) : (m.setByte a b).wf = true :=
  mwf_mset h a b

theorem Memory.wf_store {m : Memory} (h : m.wf = true) (a : Nat) (l : List Byte) : (m.store a l).wf = true := by
  induction l generalizing m a with
  | nil => exact h
  | cons b r ih => exact ih (Memory.wf_setByte h a b) (a + 1)

theorem Memory.byte_setByte {m : Memory} (h : m.wf = true) (a : Nat) (b : Byte) (x : Nat) :
    (m.setByte a b).byte x = if x = a then b else m.byte x := by
  unfold Memory.setByte Memory.byte
  split
  · rename_i hx
    subst hx
    exact mget_mset_self 0 (mwf_rising h) x b
  · rename_i hx
    exact mget_mset_ne 0 m b hx

/-- A byte after a store of a list of bytes: inside it the list's byte, outside it as before. -/
theorem Memory.byte_store {m : Memory} (h : m.wf = true) (a : Nat) (l : List Byte) (x : Nat) :
    (m.store a l).byte x = if a ≤ x ∧ x < a + l.length then l.getD (x - a) 0 else m.byte x := by
  induction l generalizing m a with
  | nil =>
    simp only [Memory.store, List.length_nil, Nat.add_zero]
    rw [if_neg (by omega)]
  | cons b r ih =>
    simp only [Memory.store, List.length_cons]
    rw [ih (Memory.wf_setByte h a b), Memory.byte_setByte h]
    by_cases h1 : a + 1 ≤ x ∧ x < a + 1 + r.length
    · rw [if_pos h1, if_pos (by omega)]
      have : x - a = (x - (a + 1)) + 1 := by omega
      rw [this, List.getD_cons_succ]
    · rw [if_neg h1]
      by_cases h2 : x = a
      · subst h2
        rw [if_pos rfl, if_pos (by omega)]
        simp
      · rw [if_neg h2, if_neg (by omega)]

theorem Memory.length_bytes (m : Memory) (a n : Nat) : (m.bytes a n).length = n := by
  induction n generalizing a with
  | zero => rfl
  | succ n ih => simp [Memory.bytes, ih]

end Sys2Proof.Machine
end

