-- ==== Sys2Proof/WellFormed.lean ====
section
/-!
DEFINITION. Well-formed commands: every operand lies in the range the spec gives it (logical tiles R9, sites R8,
partitions R313, functions R308, queue pairs R319, header fields of Table 13.4, fields of Table 11.3). Register, port,
slot and queue numbers are bit vectors of their field's width and need no check; a code that an instruction's row does not
accept, such as a reserved format, is well formed, since the spec gives its effect (an undefined encoding faults, R79).
The meanings of Machine/ judge the operands themselves and do not rely on this file.
-/
namespace Sys2Proof

def below (a n : Nat) : Bool := decide (a < n)
/-- Fields F0 to F48. -/
def fieldOk (f : Nat) : Bool := below f 49
/-- Partition ids 0 to 48 (R313). -/
def partOk (p : Nat) : Bool := below p 49
/-- The PF and VFs 1 to 31 (R308). -/
def fnOk (f : Fn) : Bool := below f.fn 32
/-- An endpoint of Table 13.6: EIDs are a byte, UDP sources an IPv6 address and a port. -/
def epOk (e : Endpoint) : Bool :=
  match e with
  | .mailbox f => fnOk f
  | .mctp _ eid => below eid 256
  | .udp a p => below a (2 ^ 128) && below p 65536
  | .fw => true
def wreqOk (w : WReq) : Bool := epOk w.ep && below w.tag 65536
/-- An instance ID has five bits. -/
def mctpOk (m : MctpIn) : Bool := below m.inst 32

/-- The header of Table 13.4. -/
def reqOk (h : Req) : Bool :=
  epOk h.ep && below h.op 256 && below h.flags 256 && below h.ix 65536 && below h.sub 256 && below h.status 256
    && below h.tag 65536 && below h.len (2 ^ 32) && below h.off (2 ^ 32)
/-- The header of Table 11.3 and its payload. -/
def frameOk (f : XFrame) : Bool :=
  below f.ch 32 && below f.pkey (2 ^ 32) && below f.ddev 65536 && below f.sdev 65536 && below f.dtile.x 128
    && below f.dtile.y 128 && below f.dqueue 16 && below f.psn (2 ^ 32) && below f.apsn (2 ^ 32) && below f.msgid 65536
    && below f.offset (2 ^ 24) && below f.length (2 ^ 24) && below f.addr (2 ^ 64) && below f.payload.length 8193
/-- Transaction tags are 0 to 63 (R49). -/
def timerOk (k : TimerKind) : Bool :=
  match k with
  | .transaction g => below g 64
  | .opening _ => true
  | .closing _ => true
  | .bar2 _ _ => true
def bringUpOk (b : BringUp) : Bool :=
  b.failing.all (fun x => x.1.valid) && b.unproven.all SiteId.valid && b.badChannels.all (fun c => below c 224)
    && b.fmax.all (fun x => x.1.valid) && b.softTrip.all fieldOk && b.woadFails.all SiteId.valid && b.routerFails.all SiteId.valid
    && b.badLanes.all (fun x => below x.1 (1386 * 92) && x.2.all (fun l => below l 34))
def bootFactsOk (b : BootFacts) : Bool :=
  b.candidates.all fieldOk && b.rampFail.all fieldOk && below b.imageOk.length 3

/-- Every operand of the command lies in its range. -/
def Instr.wf (i : Instr) : Bool :=
  match i with
  | .add t _ _ _ => t.inGrid
  | .sub t _ _ _ => t.inGrid
  | .and t _ _ _ => t.inGrid
  | .or t _ _ _ => t.inGrid
  | .xor t _ _ _ => t.inGrid
  | .sll t _ _ _ => t.inGrid
  | .srl t _ _ _ => t.inGrid
  | .sra t _ _ _ => t.inGrid
  | .slt t _ _ _ => t.inGrid
  | .sltu t _ _ _ => t.inGrid
  | .min t _ _ _ => t.inGrid
  | .max t _ _ _ => t.inGrid
  | .minu t _ _ _ => t.inGrid
  | .maxu t _ _ _ => t.inGrid
  | .sel t _ _ _ => t.inGrid
  | .mul t _ _ _ => t.inGrid
  | .mulh t _ _ _ => t.inGrid
  | .mulhu t _ _ _ => t.inGrid
  | .div t _ _ _ => t.inGrid
  | .divu t _ _ _ => t.inGrid
  | .rem t _ _ _ => t.inGrid
  | .remu t _ _ _ => t.inGrid
  | .clz t _ _ => t.inGrid
  | .popc t _ _ => t.inGrid
  | .addi t _ _ _ => t.inGrid
  | .andi t _ _ _ => t.inGrid
  | .ori t _ _ _ => t.inGrid
  | .xori t _ _ _ => t.inGrid
  | .slli t _ _ _ => t.inGrid
  | .srli t _ _ _ => t.inGrid
  | .srai t _ _ _ => t.inGrid
  | .slti t _ _ _ => t.inGrid
  | .lih t _ _ _ => t.inGrid
  | .beq t _ _ _ => t.inGrid
  | .bne t _ _ _ => t.inGrid
  | .blt t _ _ _ => t.inGrid
  | .bge t _ _ _ => t.inGrid
  | .bltu t _ _ _ => t.inGrid
  | .bgeu t _ _ _ => t.inGrid
  | .jal t _ _ => t.inGrid
  | .jalr t _ _ _ => t.inGrid
  | .lb t _ _ _ _ => t.inGrid
  | .lh t _ _ _ _ => t.inGrid
  | .lw t _ _ _ _ => t.inGrid
  | .ld t _ _ _ _ => t.inGrid
  | .lbu t _ _ _ _ => t.inGrid
  | .lhu t _ _ _ _ => t.inGrid
  | .lwu t _ _ _ _ => t.inGrid
  | .sb t _ _ _ => t.inGrid
  | .sh t _ _ _ => t.inGrid
  | .sw t _ _ _ => t.inGrid
  | .sd t _ _ _ => t.inGrid
  | .gld t _ _ _ _ _ => t.inGrid
  | .gst t _ _ _ _ => t.inGrid
  | .gdmaGet t _ _ _ => t.inGrid
  | .gdmaPut t _ _ _ => t.inGrid
  | .vadd t _ _ _ _ => t.inGrid
  | .vsub t _ _ _ _ => t.inGrid
  | .vmul t _ _ _ _ => t.inGrid
  | .vfma t _ _ _ _ => t.inGrid
  | .vmax t _ _ _ _ => t.inGrid
  | .vmin t _ _ _ _ => t.inGrid
  | .vabs t _ _ _ => t.inGrid
  | .vneg t _ _ _ => t.inGrid
  | .vand t _ _ _ _ => t.inGrid
  | .vor t _ _ _ _ => t.inGrid
  | .vxor t _ _ _ _ => t.inGrid
  | .vsll t _ _ _ _ => t.inGrid
  | .vsrl t _ _ _ _ => t.inGrid
  | .vsra t _ _ _ _ => t.inGrid
  | .vsel t _ _ _ _ => t.inGrid
  | .vcmplt t _ _ _ _ => t.inGrid
  | .vbcast t _ _ _ => t.inGrid
  | .vext t _ _ _ _ => t.inGrid
  | .vmov t _ _ _ => t.inGrid
  | .vld t _ _ _ _ => t.inGrid
  | .vst t _ _ _ => t.inGrid
  | .vqz t _ _ _ _ _ _ _ => t.inGrid
  | .vdq t _ _ _ _ _ _ => t.inGrid
  | .vamax t _ _ _ => t.inGrid
  | .vupdc t _ _ _ => t.inGrid
  | .vcvt t _ _ _ _ _ => t.inGrid
  | .mcfg t _ _ _ _ => t.inGrid
  | .mldb t _ _ _ => t.inGrid
  | .mma t _ _ _ _ => t.inGrid
  | .mswap t => t.inGrid
  | .mdrain t _ _ _ _ _ => t.inGrid
  | .matrixQueueHead t => t.inGrid
  | .mmaStart t => t.inGrid
  | .mmaComplete t _ _ => t.inGrid
  | .mdrainComplete t => t.inGrid
  | .qopen t _ _ _ _ _ => t.inGrid
  | .qsend t _ _ _ _ => t.inGrid
  | .qwait t _ _ => t.inGrid
  | .qpeek t _ _ => t.inGrid
  | .qpop t _ _ => t.inGrid
  | .qclose t _ _ => t.inGrid
  | .sendStall t => t.inGrid
  | .msgInjected t => t.inGrid
  | .closeSend t _ => t.inGrid
  | .responseTimeout t k => t.inGrid && timerOk k
  | .sget t _ _ _ _ => t.inGrid
  | .sput t _ _ _ _ => t.inGrid
  | .sgetm t _ _ _ _ => t.inGrid
  | .sputm t _ _ _ _ _ => t.inGrid
  | .spass t _ _ _ _ => t.inGrid
  | .streamDmaComplete t _ => t.inGrid
  | .sgetmLineFlush t _ => t.inGrid
  | .tokenArrival t _ _ => t.inGrid
  | .routedForward t _ => t.inGrid
  | .creditReturn t _ _ => t.inGrid
  | .detourLineWrite t => t.inGrid
  | .detourMarkerRelease t => t.inGrid
  | .csw t _ _ => t.inGrid
  | .cload t _ _ _ => t.inGrid
  | .cloadComplete t => t.inGrid
  | .configTokenSend t => t.inGrid
  | .configToken t _ => t.inGrid
  | .cflush t _ _ => t.inGrid
  | .cflushQ t _ _ => t.inGrid
  | .epoch t _ _ _ => t.inGrid
  | .autoSwitch t => t.inGrid
  | .step t _ => t.inGrid
  | .stepRelease p => partOk p
  | .rotationWindow p crcBad => partOk p && crcBad.all (fun k => below k 12544)
  | .phase t _ => t.inGrid
  | .gtc t _ => t.inGrid
  | .evt t _ => t.inGrid
  | .fence t _ _ => t.inGrid
  | .fenceComplete t => t.inGrid
  | .halt t => t.inGrid
  | .tcCtrlWrite t _ => t.inGrid
  | .tcSlotWrite t _ _ => t.inGrid
  | .tcEventWrite t _ => t.inGrid
  | .tcRngSeedHiWrite t _ => t.inGrid
  | .tcSendStallWrite t _ => t.inGrid
  | .registerWrite t _ _ _ => t.inGrid
  | .zeroiseDone t => t.inGrid
  | .correctionWriteback t row => t.inGrid && below row 49152
  | .scrubRead site bank _ => site.valid && below bank 24
  | .readReq _ => true
  | .writeReq _ => true
  | .readRsp _ => true
  | .writeAck _ => true
  | .errorRsp _ => true
  | .msg _ => true
  | .msgAck _ => true
  | .openReq _ => true
  | .openRsp _ => true
  | .closeReq _ => true
  | .closeRsp _ => true
  | .trainForward _ _ _ => true
  | .contextFlushEnd p => partOk p
  | .dramRequest _ _ => true
  | .refreshWindow dc _ _ => below dc 28
  | .calibrationWindow ch _ => below ch 224
  | .patrolScrub ch _ => below ch 224
  | .channelFailure ch => below ch 224
  | .commitWithdrawal p => partOk p
  | .hostWindowRequest _ => true
  | .hostCompletion _ tag _ => below tag 65536
  | .bar2Request f _ _ _ => fnOk f
  | .sqTailDoorbell f qp _ cmds => fnOk f && below qp 256 && cmds.all (fun b => below b.length 65)
  | .cqHeadDoorbell f qp _ => fnOk f && below qp 256
  | .completionEntry _ qp => below qp 256
  | .completionInterrupt _ qp => below qp 256
  | .loadConfig _ qp _ => below qp 256
  | .launch _ qp => below qp 256
  | .launchComplete p => partOk p
  | .copy _ qp _ => below qp 256
  | .stepCommit _ qp => below qp 256
  | .sqFence _ qp => below qp 256
  | .signal _ qp => below qp 256
  | .signalOnStep _ qp cid => below qp 256 && below cid 65536
  | .perst _ => true
  | .perstRelease _ => true
  | .hostWindowRegion w ix subix _ => wreqOk w && below ix 65536 && below subix 256
  | .createPartition w _ => wreqOk w
  | .releasePartition w _ => wreqOk w
  | .movePartition w _ => wreqOk w
  | .transferPartition w _ => wreqOk w
  | .bindContext w _ => wreqOk w
  | .unbindContext w _ => wreqOk w
  | .createQueuePair w _ => wreqOk w
  | .deleteQueuePair w _ => wreqOk w
  | .allocateGranules w _ => wreqOk w
  | .releaseGranules w _ => wreqOk w
  | .interleaveMode w _ => wreqOk w
  | .queueSetup w _ => wreqOk w
  | .slotMode w subix _ => wreqOk w && below subix 256
  | .reconfigurationMode w subix _ => wreqOk w && below subix 256
  | .scaleTableDescriptor w subix _ => wreqOk w && below subix 256
  | .scaleTableSnapshot w subix _ => wreqOk w && below subix 256
  | .clearHistograms w _ => wreqOk w
  | .protectedRegions w subix _ => wreqOk w && below subix 256
  | .connectionDescriptor w ix subix _ => wreqOk w && below ix 65536 && below subix 256
  | .aperture w ix subix _ => wreqOk w && below ix 65536 && below subix 256
  | .preferredReference w _ => wreqOk w
  | .siteTest w _ => wreqOk w
  | .fieldTest w _ => wreqOk w
  | .dramCalibrationRequest w _ => wreqOk w
  | .testResult _ _ _ failed => failed.all (fun x => x.1.valid)
  | .clearLatchedClasses w _ => wreqOk w
  | .contextResetWrite w _ => wreqOk w
  | .computeResetWrite w _ => wreqOk w
  | .fullResetWrite w _ => wreqOk w
  | .contextResetDone p => partOk p
  | .computeResetDone facts => bringUpOk facts
  | .fullResetDone facts => bringUpOk facts
  | .resetEscalation => true
  | .aceelRead h => reqOk h
  | .aceelWrite h _ => reqOk h
  | .readBlock h => reqOk h
  | .writeBlock h _ => reqOk h
  | .subscribe h _ => reqOk h
  | .notify ep ix subix => epOk ep && below ix 65536 && below subix 256
  | .snapshotExpiry ep => epOk ep
  | .stagingExpiry ep => epOk ep
  | .hcMboxGo f _ => fnOk f
  | .hcMboxDone f => fnOk f
  | .hcMboxNotify f => fnOk f
  | .mailboxResponse f => fnOk f
  | .setEndpointId m _ => mctpOk m
  | .getEndpointId m => mctpOk m
  | .getMctpVersionSupport m => mctpOk m
  | .getMessageTypeSupport m => mctpOk m
  | .getVendorDefinedMessageSupport m => mctpOk m
  | .getVersion m => mctpOk m
  | .getCapabilities m => mctpOk m
  | .negotiateAlgorithms m => mctpOk m
  | .getDigests m => mctpOk m
  | .getCertificate m _ _ _ => mctpOk m
  | .challenge m _ _ => mctpOk m
  | .getMeasurements m _ _ => mctpOk m
  | .neighborSolicitation node _ => (node.all (fun n => below n 16))
  | .pauseFrame eth => below eth 16
  | .xdtMsg eth fr => below eth 16 && frameOk fr
  | .xdtWrite eth fr => below eth 16 && frameOk fr
  | .xdtReadReq eth fr => below eth 16 && frameOk fr
  | .xdtReadRsp eth fr => below eth 16 && frameOk fr
  | .xdtAck eth fr => below eth 16 && frameOk fr
  | .xdtNak eth fr => below eth 16 && frameOk fr
  | .xdtCnp eth fr => below eth 16 && frameOk fr
  | .xdtFrameSend conn => below conn 4096
  | .ackTimer conn => below conn 4096
  | .retransmissionTimeout conn => below conn 4096
  | .restartTimer conn => below conn 4096
  | .autoRestart conn => below conn 4096
  | .rateIncrease conn => below conn 4096
  | .apertureRequest _ => true
  | .ptpEventMessage eth _ => below eth 16
  | .ethernetLinkChange eth _ _ => below eth 16
  | .referenceLoss _ => true
  | .cclkRestart p => partOk p
  | .pllLockTimeout p f => partOk p && fieldOk f
  | .syncPulse seen => seen.all (fun x => fieldOk x.1)
  | .syncPulseMissing => true
  | .governorCycle _ => true
  | .energyInterval _ => true
  | .inputFault => true
  | .emergencyCap => true
  | .converterFailure => true
  | .fieldSupplyTrip f _ => fieldOk f
  | .droopTrip f det => fieldOk f && below det 64
  | .droopRamp f blk => fieldOk f && below blk 16
  | .thermalReading temps => temps.all (fun x => x.1.valid)
  | .thermalRecovery f => fieldOk f
  | .blockClockRestart f blk => fieldOk f && below blk 16
  | .laneCompareStep bundle _ => below bundle 127512
  | .walkStepDue g crcBad => below g 8 && crcBad.all (fun k => below k 12544)
  | .forcedRotationWindow p crcBad => partOk p && crcBad.all (fun k => below k 12544)
  | .visitComplete f row _ _ => fieldOk f && below row 16
  | .eventForward t bit => t.inGrid && below bit 14
  | .heartbeat heard => heard.all fieldOk
  | .controllerHang f => fieldOk f
  | .bootMasterFailover => true
  | .pwrEnHigh facts => bootFactsOk facts
  | .bootReady facts => bringUpOk facts
  | .pwrEnLow => true
  | .forceOffN => true
  | .imageWrite w _ => wreqOk w
  | .commitSvn w _ => wreqOk w
  | .ownerKeySlot w subix _ => wreqOk w && below subix 256
  | .debugPolicy w _ => wreqOk w
  | .setSlot w _ => wreqOk w
  | .clearSlot w _ => wreqOk w
  | .setDebugPolicy w _ => wreqOk w
  | .restoreDefaults w _ => wreqOk w
  | .debugUnlock _ _ => true
  | .unlockComplete => true
  | .referenceReturn _ => true
  | .operatingPointCclkStop p => partOk p
  | .mldbAccComplete t => t.inGrid
  | .detourLineRead t => t.inGrid
  | .controllerRestarted f => fieldOk f
  | .hcAperture f _ => fnOk f
  | .functionReset f => fnOk f
  | .vfEnable _ _ => true

end Sys2Proof
end

