-- ==== Sys2Proof/Safety.lean ====
section
/-!
DEFINITION. What the claims are stated in: the invariant of the state, when an instruction issues, what a command leaves
unchanged, and what counts as a safe run (no step answers a fault or a refusal).
-/
namespace Sys2Proof.Machine

/-! ### The invariant -/

/-- A tile is sound: its memory and its registers are in canonical form, g0 is not listed and so reads 0 (R80), the forced
bits of TC_EVENT_EN are 1 (R70) and TC_SEND_STALL is at least 0x1000 (Table 2.12). -/
def Tile.ok (T : Tile) : Bool :=
  T.mem.wf && mwf 0 T.g && T.g.all (fun e => decide (e.1 ≠ 0)) && mwf 0 T.v
    && decide (T.eventEn &&& evForced = evForced) && decide (0x1000 ≤ T.sendStall.toNat)

/-- The state is sound: the tiles are listed in canonical form and each is sound, and the DRAM's memory is in canonical
form. -/
def State.ok (s : State) : Bool := mwf {} s.tiles && s.tiles.all (fun e => e.2.ok) && s.dram.mem.wf

/-! ### Issue -/

/-- An instruction of n words that names these scalar registers issues on tile t: the core fetches, the words lie in the
instruction buffer, and no register awaits a result (R47, R77, Table 2.2). -/
def Issues (s : State) (t : XY) (n : Nat) (regs : List Reg) : Prop :=
  canIssue s t = true ∧ (getTile s t).pc.toNat + n ≤ 4096 ∧ ∀ r ∈ regs, r ∉ (getTile s t).await

/-! ### Frames -/

/-- Only tile t changes: every other tile, and everything that is no tile, is as before. -/
def OnlyTile (t : XY) (s s' : State) : Prop :=
  { s' with tiles := s.tiles } = s ∧ ∀ u : XY, u.inGrid = true → u ≠ t → getTile s' u = getTile s u

/-- The command completes, tile t is then T, and nothing else has changed. -/
def Leaves (i : Instr) (s : State) (t : XY) (T : Tile) : Prop :=
  ∃ s', exec i s = .next s' ∧ getTile s' t = T ∧ OnlyTile t s s'

/-- The command completes and what holds then. -/
def Ends (i : Instr) (s : State) (post : State → Prop) : Prop := ∃ s', exec i s = .next s' ∧ post s'

/-! ### Packets and host commands -/

/-- A response to packet k has been injected next: its type, its ends swapped, the TAG copied, its status and data (R244). -/
def Responds (s s' : State) (k : Pkt) (ty : PktType) (st : Byte) (data : List Byte) : Prop :=
  ∃ r, mfind s'.mesh.pkts s.mesh.nextId = some r ∧ r.type = ty ∧ r.src = k.dst ∧ r.dst = k.src ∧ r.at_ = k.dst ∧ r.tag = k.tag ∧
    r.status = st ∧ r.payload = data

/-- Packet pid is k, its turn has come at its destination, nothing is being flushed, and the way back is open. -/
def AtEnd (s : State) (pid : Nat) (k : Pkt) : Prop :=
  mfind s.mesh.pkts pid = some k ∧ atEnd s pid k = true ∧ s.mesh.flushing = [] ∧ mrising s.mesh.pkts = true ∧ pid < s.mesh.nextId ∧
    routeOf s true k.dst k.src none ≠ .unreachable

/-- The bytes that a request brings: its payload, or, of a GDMA.PUT that ends at its own tile and so crosses no link, what the scratchpad
holds there, all of it good (R86, R483). -/
def Brings (s : State) (k : Pkt) (l : List Byte) : Prop :=
  (k.loc = none ∧ l = k.payload) ∨
    ∃ o, k.loc = some o ∧ k.type = .write ∧ k.payload.length = k.len ∧ l = (getTile s k.src).mem.bytes o k.len ∧
      ∀ w ∈ wordsOf o k.len, mfind (getTile s k.src).ecc w = none

/-- CCLK runs in every block of the field, so that a zeroise of its tiles goes on. -/
def ClocksRun (s : State) (f : Nat) : Prop :=
  s.clk.lost = false ∧ (getField s f).pllC = true ∧ (getField s f).stopped = false ∧
    ∀ b < 16, (getBlock s (16 * f + b)).stopped = false

/-- The pair holds one command, which has not started, passes the common checks of R322, and acts for partition p. -/
def CmdReady (s : State) (port : HPort) (qp : Nat) (q : QPair) (c : HostCmd) (p : Nat) : Prop :=
  getPair s port qp = some q ∧ q.cmds = [c] ∧ c.started = false ∧ c.run = none ∧ c.scope = [] ∧ q.posted = [] ∧ q.done = [] ∧
    c.noCqe = false ∧ commonCheck s port q c = none ∧ c.part s = some p

/-- The pair's command has completed: the completion waits to be written. -/
def Completed (s : State) (port : HPort) (qp cid : Nat) (st : Byte) (res : Nat) : Prop :=
  ∃ q, getPair s port qp = some q ∧ q.cmds = [] ∧ q.done.map (fun d => (d.cid, d.status, d.result)) = [(cid, st, BitVec.ofNat 64 res)]

/-- A whole WRITE of this value reaches the dictionary by mailbox, MCTP or from the firmware, is no retry, passes checks 1
to 6 of R338, and no other request is still to be answered. -/
def Accepts (s : State) (w : WReq) (ix sub : Nat) (d : List Byte) : Prop :=
  isUdp w.ep = false ∧ reaches s (wholeWrite w ix sub d) d = true ∧ retryOf s (wholeWrite w ix sub d) d = none ∧
    malformed (wholeWrite w ix sub d) = false ∧ (∃ i, judge s w.ep ix sub false (.write d) = .ok i) ∧ s.sec.unlocking = none ∧
    s.aceel.waiting = []

/-- The response to an endpoint: it waits for the mailbox's response buffer, or has left last. -/
def Replied (s : State) (ep : Endpoint) (frame : List Byte) : Prop :=
  match ep with
  | .mailbox f => (getFn s f).ready = some frame
  | _ => s.out.getLast? = some (sent ep frame)

/-- The WRITE has been answered with this status. -/
def WriteReplied (s : State) (w : WReq) (ix sub : Nat) (d : List Byte) (st : Byte) : Prop :=
  Replied s w.ep (bareReply (wholeWrite w ix sub d) st)

/-- A counter of 0x6800. -/
def portCount (s : State) (port : HPort) (i : Nat) : Nat := mget 0 (portOf s port).counters i

/-! ### Safe runs -/

/-- Every step from s, up to k of them, answers a next state. -/
def SafeFor : Nat → State → Prop
  | 0, _ => True
  | k + 1, s => ∃ s', step s = .next s' ∧ SafeFor k s'

/-! ### Tables of the instruction set, as the claims state them -/

/-- Table 3.4: what each register instruction of two sources computes (R82). -/
def aluTable : List ((XY → Reg → Reg → Reg → Instr) × (Word64 → Word64 → Word64)) :=
  [ (.add, fun a b => a + b), (.sub, fun a b => a - b), (.and, fun a b => a &&& b), (.or, fun a b => a ||| b),
    (.xor, fun a b => a ^^^ b),
    (.sll, fun a b => a <<< (b.toNat % 64)), (.srl, fun a b => a >>> (b.toNat % 64)),
    (.sra, fun a b => a.sshiftRight (b.toNat % 64)),
    (.slt, fun a b => if a.toInt < b.toInt then 1 else 0), (.sltu, fun a b => if a.toNat < b.toNat then 1 else 0),
    (.min, fun a b => if a.toInt < b.toInt then a else b), (.max, fun a b => if a.toInt < b.toInt then b else a),
    (.minu, fun a b => if a.toNat < b.toNat then a else b), (.maxu, fun a b => if a.toNat < b.toNat then b else a),
    (.mul, fun a b => BitVec.ofNat 64 (a.toNat * b.toNat)),
    (.mulh, fun a b => (a.signExtend 128 * b.signExtend 128).extractLsb' 64 64),
    (.mulhu, fun a b => BitVec.ofNat 64 (a.toNat * b.toNat / 2 ^ 64)),
    (.div, fun a b => if b = 0 then BitVec.allOnes 64 else BitVec.ofInt 64 (a.toInt.tdiv b.toInt)),
    (.divu, fun a b => if b = 0 then BitVec.allOnes 64 else BitVec.ofNat 64 (a.toNat / b.toNat)),
    (.rem, fun a b => if b = 0 then a else BitVec.ofInt 64 (a.toInt.tmod b.toInt)),
    (.remu, fun a b => if b = 0 then a else BitVec.ofNat 64 (a.toNat % b.toNat)) ]

/-- Table 3.5: what each immediate instruction computes from g[SA] and the sign-extended immediate. -/
def immTable : List ((XY → Reg → Reg → Imm → Instr) × (Word64 → Word64 → Word64)) :=
  [ (.addi, fun a i => a + i), (.andi, fun a i => a &&& i), (.ori, fun a i => a ||| i), (.xori, fun a i => a ^^^ i),
    (.slti, fun a i => if a.toInt < i.toInt then 1 else 0) ]

/-- Table 3.5: the shifts by a count of six bits. -/
def shiftTable : List ((XY → Reg → Reg → Imm → Instr) × (Word64 → Nat → Word64)) :=
  [ (.slli, fun a n => a <<< n), (.srli, fun a n => a >>> n), (.srai, fun a n => a.sshiftRight n) ]

/-- Table 3.6: the conditions. -/
def branchTable : List ((XY → Reg → Reg → Off12 → Instr) × (Word64 → Word64 → Prop)) :=
  [ (.beq, fun a b => a = b), (.bne, fun a b => a ≠ b), (.blt, fun a b => a.toInt < b.toInt),
    (.bge, fun a b => b.toInt ≤ a.toInt), (.bltu, fun a b => a.toNat < b.toNat), (.bgeu, fun a b => b.toNat ≤ a.toNat) ]

/-- Table 3.7: the sign-extending loads with their sizes. -/
def loadTable : List ((XY → Reg → Reg → Imm → Upset → Instr) × Nat) := [(.lb, 1), (.lh, 2), (.lw, 4), (.ld, 8)]
/-- The zero-extending loads. -/
def loadUTable : List ((XY → Reg → Reg → Ext → Upset → Instr) × Nat) := [(.lbu, 1), (.lhu, 2), (.lwu, 4)]
/-- The stores. -/
def storeTable : List ((XY → Sent → Reg → Imm → Instr) × Nat) := [(.sb, 1), (.sh, 2), (.sw, 4), (.sd, 8)]


/-- A number of n bytes as a two's complement integer. -/
def signedBytes (n v : Nat) : Int := if v < 2 ^ (8 * n - 1) then (v : Int) else (v : Int) - 2 ^ (8 * n)

/-- Table 3.7: a local load, by either immediate of which it takes the one its format has: its size, and whether it extends the
sign. -/
structure LocalLoad where
  instr : XY → Reg → Reg → Imm → Ext → Upset → Instr
  size : Nat
  signed : Bool
/-- Its offset and its words. -/
def LocalLoad.off (l : LocalLoad) (i : Imm) (x : Ext) : Word64 := if l.signed then i.value else x.signExtend 64
def LocalLoad.words (l : LocalLoad) (i : Imm) : Nat := if l.signed then i.words else 2
/-- The integer that the bytes give. -/
def LocalLoad.value (l : LocalLoad) (v : Nat) : Int := if l.signed then signedBytes l.size v else v
def localTable : List LocalLoad :=
  loadTable.map (fun r => ⟨fun t d a i _ up => r.1 t d a i up, r.2, true⟩)
    ++ loadUTable.map (fun r => ⟨fun t d a _ x up => r.1 t d a x up, r.2, false⟩)

/-- No transaction of another device is under way on a connection. -/
def NoRequests (s : State) : Prop := ∀ e ∈ s.xdt.conns, e.2.requests = []

/-! ### The random generator, as R59 and R60 give it -/

/-- Its four words, s0 to s3. -/
abbrev Gen := Word32 × Word32 × Word32 × Word32
def genStep (q : Gen) : Gen :=
  let x := q.1 ^^^ (q.1 <<< 11)
  (q.2.1, q.2.2.1, q.2.2.2, q.2.2.2 ^^^ (q.2.2.2 >>> 19) ^^^ x ^^^ (x >>> 8))
/-- After n steps; the word that a step draws is the new s3. -/
def genAfter : Nat → Gen → Gen
  | 0, q => q
  | n + 1, q => genStep (genAfter n q)
def Tile.gen (T : Tile) : Gen := (T.s0, T.s1, T.s2, T.s3)
def Tile.withGen (T : Tile) (q : Gen) : Tile := { T with s0 := q.1, s1 := q.2.1, s2 := q.2.2.1, s3 := q.2.2.2 }
/-- n draws of 16 bits: the even one takes bits [15:0] of a word and the next bits [31:16]. -/
def genDraws (q : Gen) (n : Nat) : List Nat :=
  (List.range n).map (fun k => (genAfter (k / 2 + 1) q).2.2.2.toNat / 65536 ^ (k % 2) % 65536)

/-- The check bits of every word that n bytes from a touch are clean. -/
def Clean (T : Tile) (a n : Nat) : Prop := ∀ w, a / 8 ≤ w → w ≤ (a + n - 1) / 8 → mfind T.ecc w = none

/-- The scratchpad takes a core's access now: it is not being zeroised and no local fence is open (R74, R105). -/
def PadFree (T : Tile) : Prop := T.zeroising = false ∧ T.fenced = false

/-- n bytes from a: naturally aligned and inside the scratchpad (R84). -/
def PadAddr (a n : Nat) : Prop := a % n = 0 ∧ a + n ≤ 0x300000

/-- Nothing of the tile's stream units moves a token by itself: no stream DMA runs, no token waits behind a detour ring, and no
marker at a head names the slot of an overlapped load with another tag (R195). -/
def Calm (T : Tile) : Prop :=
  T.su.dmas = [] ∧ (∀ n, (T.ring n).ready = []) ∧ (T.activeSlot.ovNext = true → T.markerTags T.activeSlot.next = true)

/-- The bytes of a local line as a token's DATA. -/
def tokenAt (T : Tile) (a : Nat) : BitVec 256 := BitVec.ofNat 256 (leNat (T.mem.bytes a 32))

/-- A lane of w bits as a two's complement integer. -/
def asInt (w x : Nat) : Int := if x < 2 ^ (w - 1) then (x : Int) else (x : Int) - 2 ^ w
/-- An integer wrapped to w bits (R89). -/
def wrapped (w : Nat) (x : Int) : Nat := (x % 2 ^ w).toNat

/-- Table 3.11 on integer lanes: the new lane of v[D] from the lanes x of v[SA], y of v[SB] and z of v[D], of w bits. -/
def intLaneTable : List ((XY → Reg → Reg → Reg → Ty → Instr) × (Nat → Nat → Nat → Nat → Nat)) :=
  [ (.vadd, fun w x y _ => wrapped w (asInt w x + asInt w y)), (.vsub, fun w x y _ => wrapped w (asInt w x - asInt w y)),
    (.vmul, fun w x y _ => wrapped w (asInt w x * asInt w y)),
    (.vmax, fun w x y _ => if asInt w x < asInt w y then y else x),
    (.vmin, fun w x y _ => if asInt w x < asInt w y then x else y),
    (fun t d a _ ty => .vabs t d a ty, fun w x _ _ => wrapped w (if asInt w x < 0 then -(asInt w x) else asInt w x)),
    (fun t d a _ ty => .vneg t d a ty, fun w x _ _ => wrapped w (-(asInt w x))),
    (.vsll, fun w x y _ => x * 2 ^ (y % w) % 2 ^ w), (.vsrl, fun w x y _ => x / 2 ^ (y % w)),
    (.vsra, fun w x y _ => wrapped w (asInt w x / 2 ^ (y % w))),
    (.vsel, fun _ x y z => if z ≠ 0 then x else y),
    (.vcmplt, fun w x y _ => if asInt w x < asInt w y then 2 ^ w - 1 else 0),
    (fun t d a _ ty => .vmov t d a ty, fun _ x _ _ => x) ]

/-- The same on floating-point lanes: one rounding to nearest even, overflow to infinity, canonical NaNs (R89, R126). -/
def floatLaneTable : List ((XY → Reg → Reg → Reg → Ty → Instr) × (Wide → Nat → Nat → Nat → Nat)) :=
  [ (.vadd, fun k x y _ => k.enc .even false ((k.dec x).add (k.dec y))),
    (.vsub, fun k x y _ => k.enc .even false ((k.dec x).add (k.dec y).neg)),
    (.vmul, fun k x y _ => k.enc .even false ((k.dec x).mul (k.dec y))),
    (.vfma, fun k x y z => k.enc .even false (((k.dec x).mul (k.dec y)).add (k.dec z))),
    (.vmax, fun k x y _ => k.enc .even false (vmaxVal (k.dec x) (k.dec y))),
    (.vmin, fun k x y _ => k.enc .even false (vminVal (k.dec x) (k.dec y))),
    (fun t d a _ ty => .vabs t d a ty, fun k x _ _ => k.enc .even false (k.dec x).abs),
    (fun t d a _ ty => .vneg t d a ty, fun k x _ _ => k.enc .even false (k.dec x).neg),
    (.vsel, fun _ x y z => if z ≠ 0 then x else y),
    (.vcmplt, fun k x y _ => if (k.dec x).lt (k.dec y) then 2 ^ k.width - 1 else 0),
    (fun t d a _ ty => .vmov t d a ty, fun _ x _ _ => x) ]

/-- Table 3.11: the bitwise instructions. -/
def bitTable : List ((XY → Reg → Reg → Reg → Ty → Instr) × (Vec → Vec → Vec)) :=
  [ (.vand, fun a b => a &&& b), (.vor, fun a b => a ||| b), (.vxor, fun a b => a ^^^ b) ]

/-- Lane k of w bits. -/
def lane (w k : Nat) (v : Vec) : Nat := v.toNat / 2 ^ (w * k) % 2 ^ w

/-- The data frames of XDT with their opcodes (Table 11.4). -/
def xdtTable : List ((Nat → XFrame → Instr) × Nat) := [(.xdtMsg, 1), (.xdtWrite, 2), (.xdtReadReq, 3), (.xdtReadRsp, 4)]

/-- Lane widths of the type codes (Table 3.9). -/
def tyWidth (ty : Ty) : Nat := [16, 16, 32, 8, 16, 32, 64, 0].getD ty.toNat 0

/-- A floating-point TY over 32 elements from register r: a pair for FP32 (R90). -/
def floatOk (ty : Ty) (r : Reg) : Bool := decide (ty.toNat < 3) && (decide (ty.toNat ≠ 2) || decide (r.toNat % 2 = 0))
/-- The registers of such elements. -/
def elemRegs (ty : Ty) (r : Reg) : List Reg := if ty.toNat = 2 then [r, r + 1] else [r]
/-- A blocked format, 0x03 to 0x0C, and such a type (R91). -/
def quantOk (f : FmtCode) (ty : Ty) (r : Reg) : Bool := (blockedFmt f).isSome && floatOk ty r

end Sys2Proof.Machine

namespace Sys2Proof

/-- The commands that a tile's control core issues. -/
def Instr.issuer (i : Instr) : Option XY :=
  match i with
  | .add t _ _ _ | .sub t _ _ _ | .and t _ _ _ | .or t _ _ _ | .xor t _ _ _ | .sll t _ _ _ | .srl t _ _ _ | .sra t _ _ _
  | .slt t _ _ _ | .sltu t _ _ _ | .min t _ _ _ | .max t _ _ _ | .minu t _ _ _ | .maxu t _ _ _ | .sel t _ _ _
  | .mul t _ _ _ | .mulh t _ _ _ | .mulhu t _ _ _ | .div t _ _ _ | .divu t _ _ _ | .rem t _ _ _ | .remu t _ _ _
  | .clz t _ _ | .popc t _ _
  | .addi t _ _ _ | .andi t _ _ _ | .ori t _ _ _ | .xori t _ _ _ | .slli t _ _ _ | .srli t _ _ _ | .srai t _ _ _
  | .slti t _ _ _ | .lih t _ _ _
  | .beq t _ _ _ | .bne t _ _ _ | .blt t _ _ _ | .bge t _ _ _ | .bltu t _ _ _ | .bgeu t _ _ _ | .jal t _ _ | .jalr t _ _ _
  | .lb t _ _ _ _ | .lh t _ _ _ _ | .lw t _ _ _ _ | .ld t _ _ _ _ | .lbu t _ _ _ _ | .lhu t _ _ _ _ | .lwu t _ _ _ _
  | .sb t _ _ _ | .sh t _ _ _ | .sw t _ _ _ | .sd t _ _ _
  | .gld t _ _ _ _ _ | .gst t _ _ _ _ | .gdmaGet t _ _ _ | .gdmaPut t _ _ _
  | .vadd t _ _ _ _ | .vsub t _ _ _ _ | .vmul t _ _ _ _ | .vfma t _ _ _ _ | .vmax t _ _ _ _ | .vmin t _ _ _ _
  | .vabs t _ _ _ | .vneg t _ _ _ | .vand t _ _ _ _ | .vor t _ _ _ _ | .vxor t _ _ _ _ | .vsll t _ _ _ _
  | .vsrl t _ _ _ _ | .vsra t _ _ _ _ | .vsel t _ _ _ _ | .vcmplt t _ _ _ _ | .vbcast t _ _ _ | .vext t _ _ _ _
  | .vmov t _ _ _ | .vld t _ _ _ _ | .vst t _ _ _ | .vqz t _ _ _ _ _ _ _ | .vdq t _ _ _ _ _ _ | .vamax t _ _ _
  | .vupdc t _ _ _ | .vcvt t _ _ _ _ _
  | .mcfg t _ _ _ _ | .mldb t _ _ _ | .mma t _ _ _ _ | .mswap t | .mdrain t _ _ _ _ _
  | .qopen t _ _ _ _ _ | .qsend t _ _ _ _ | .qwait t _ _ | .qpeek t _ _ | .qpop t _ _ | .qclose t _ _
  | .sget t _ _ _ _ | .sput t _ _ _ _ | .sgetm t _ _ _ _ | .sputm t _ _ _ _ _ | .spass t _ _ _ _
  | .csw t _ _ | .cload t _ _ _ | .cflush t _ _ | .cflushQ t _ _ | .epoch t _ _ _
  | .step t _ | .phase t _ | .gtc t _ | .evt t _ | .fence t _ _ | .halt t => some t
  | _ => none

/-- What the issue of an instruction asks for: its tile, its length in words, the scalar registers that it names, and whether its
encoding is defined (R47, R77, R79). None for a command that no core issues. -/
def Instr.form (i : Instr) : Option (XY × Nat × List Reg × Bool) :=
  match i with
  | .add t d a b | .sub t d a b | .and t d a b | .or t d a b | .xor t d a b | .sll t d a b | .srl t d a b | .sra t d a b
  | .slt t d a b | .sltu t d a b | .min t d a b | .max t d a b | .minu t d a b | .maxu t d a b | .sel t d a b
  | .mul t d a b | .mulh t d a b | .mulhu t d a b | .div t d a b | .divu t d a b | .rem t d a b | .remu t d a b =>
      some (t, 1, [d, a, b], true)
  | .clz t d a | .popc t d a => some (t, 1, [d, a], true)
  | .addi t d a x | .andi t d a x | .ori t d a x | .xori t d a x | .slti t d a x => some (t, x.words, [d, a], true)
  | .slli t d a x | .srli t d a x | .srai t d a x => some (t, x.words, [d, a], x.shift.isSome)
  | .lih t d a _ => some (t, 2, [d, a], true)
  | .beq t a b _ | .bne t a b _ | .blt t a b _ | .bge t a b _ | .bltu t a b _ | .bgeu t a b _ => some (t, 1, [a, b], true)
  | .jal t d _ => some (t, 1, [d], true)
  | .jalr t d a _ => some (t, 1, [d, a], true)
  | .lb t d a x _ | .lh t d a x _ | .lw t d a x _ | .ld t d a x _ => some (t, x.words, [d, a], true)
  | .lbu t d a _ _ | .lhu t d a _ _ | .lwu t d a _ _ => some (t, 2, [d, a], true)
  | .sb t d a x | .sh t d a x | .sw t d a x | .sd t d a x => some (t, x.words, [d.reg, a], true)
  | .gld t d a _ _ _ | .gst t d a _ _ => some (t, 2, [d, a], true)
  | .gdmaGet t d a b | .gdmaPut t d a b => some (t, 2, [d, a, b], true)
  | .vadd t _ _ _ ty | .vsub t _ _ _ ty | .vmul t _ _ _ ty | .vmax t _ _ _ ty | .vmin t _ _ _ ty | .vand t _ _ _ ty
  | .vor t _ _ _ ty | .vxor t _ _ _ ty | .vsel t _ _ _ ty | .vcmplt t _ _ _ ty => some (t, 1, [], decide (ty ≠ 7))
  | .vabs t _ _ ty | .vneg t _ _ ty | .vmov t _ _ ty => some (t, 1, [], decide (ty ≠ 7))
  | .vfma t _ _ _ ty => some (t, 1, [], decide (ty.toNat < 3))
  | .vsll t _ _ _ ty | .vsrl t _ _ _ ty | .vsra t _ _ _ ty => some (t, 1, [], decide (3 ≤ ty.toNat) && decide (ty ≠ 7))
  | .vbcast t _ a ty => some (t, 1, [a], decide (ty ≠ 7))
  | .vext t d _ b ty => some (t, 1, [d, b], decide (ty ≠ 7))
  | .vld t _ a _ _ => some (t, 2, [a], true)
  | .vst t _ a _ => some (t, 2, [a], true)
  | .vqz t _ a b f _ ty g => some (t, 2, [b, g], Machine.quantOk f ty a)
  | .vdq t d _ b f ty g => some (t, 2, [b, g], Machine.quantOk f ty d)
  | .vamax t d a ty => some (t, 2, [d], Machine.floatOk ty a)
  | .vupdc t _ a _ => some (t, 2, [], decide (a.toNat % 2 = 0))
  | .vcvt t d a _ ty ty' => some (t, 2, [], Machine.floatOk ty a && Machine.floatOk ty' d)
  | .mcfg t d _ _ _ => some (t, 2, [d], true)
  | .mldb t a b _ => some (t, 2, [a.reg, b], true)
  | .mma t a b _ _ => some (t, 2, [a, b], true)
  | .mswap t => some (t, 2, [], true)
  | .mdrain t d a b f _ => some (t, 2, [d.reg, a, b], (Machine.fmtOf f).isSome)
  | .qopen t d a b _ _ | .qsend t d a b _ => some (t, 2, [d, a, b], true)
  | .qwait t d _ | .qpeek t d _ | .qpop t d _ => some (t, 2, [d.reg], true)
  | .qclose t d _ => some (t, 2, [d], true)
  | .sget t _ _ _ g => some (t, 2, [g], true)
  | .sput t _ _ _ _ => some (t, 2, [], true)
  | .sgetm t d a b _ => some (t, 2, [d.reg, a, b], true)
  | .sputm t d a b _ _ => some (t, 2, [d, a, b], true)
  | .spass t d b _ _ => some (t, 2, [d, b], true)
  | .cload t d a n => some (t, 1, [d, a.reg], decide (n.toNat < 4))
  | .csw t d n | .cflush t d n => some (t, 1, [d], decide (n.toNat < 4))
  | .cflushQ t d n => some (t, 1, [d.reg], decide (n.toNat < 4))
  | .epoch t d m n => some (t, 1, [d], decide (n.toNat < 4) && !(m.getLsbD 4))
  | .step t d | .gtc t d => some (t, 1, [d], true)
  | .phase t n => some (t, 1, [], decide (n.toNat < 8))
  | .evt t a => some (t, 1, [a], true)
  | .fence t d m => some (t, 1, [d], decide (1 ≤ m.toNat) && decide (m.toNat ≤ 3))
  | .halt t => some (t, 1, [], true)
  | _ => none

/-- The vector registers that an instruction names (R47); 32 elements of FP32 take a pair (R90). -/
def Instr.vecs (i : Instr) : List Reg :=
  match i with
  | .vadd _ d a b _ | .vsub _ d a b _ | .vmul _ d a b _ | .vfma _ d a b _ | .vmax _ d a b _ | .vmin _ d a b _ | .vand _ d a b _
  | .vor _ d a b _ | .vxor _ d a b _ | .vsll _ d a b _ | .vsrl _ d a b _ | .vsra _ d a b _ | .vsel _ d a b _
  | .vcmplt _ d a b _ => [d, a, b]
  | .vabs _ d a _ | .vneg _ d a _ | .vmov _ d a _ => [d, a]
  | .vbcast _ d _ _ => [d]
  | .vext _ _ a _ _ => [a]
  | .vld _ d _ _ _ => [d]
  | .vst _ d _ _ => [d.reg]
  | .vqz _ d a _ _ _ ty _ => d :: Machine.elemRegs ty a
  | .vdq _ d a _ _ ty _ => a :: Machine.elemRegs ty d
  | .vamax _ _ a ty => Machine.elemRegs ty a
  | .vupdc _ d a b => [d, b, a, a + 1]
  | .vcvt _ d a _ ty ty' => Machine.elemRegs ty a ++ Machine.elemRegs ty' d
  | .sget _ d _ _ _ | .sput _ d _ _ _ => [d]
  | _ => []

end Sys2Proof
end

