-- ==== Sys2Proof/Laws/State.lean ====
section
/-!
SUPPORT. The state's accessors: one lemma per field and update, reads of a tile after a write of a tile, and reads of a
register after a write of a register.
-/
namespace Sys2Proof.Machine

/-! ### setTile and its fields -/

@[simp] theorem setTile_pending (s : State) (t : XY) (T : Tile) : (setTile s t T).pending = s.pending := rfl
@[simp] theorem setTile_sites (s : State) (t : XY) (T : Tile) : (setTile s t T).sites = s.sites := rfl
@[simp] theorem setTile_rows (s : State) (t : XY) (T : Tile) : (setTile s t T).rows = s.rows := rfl
@[simp] theorem setTile_blocks (s : State) (t : XY) (T : Tile) : (setTile s t T).blocks = s.blocks := rfl
@[simp] theorem setTile_fields (s : State) (t : XY) (T : Tile) : (setTile s t T).fields = s.fields := rfl
@[simp] theorem setTile_bundles (s : State) (t : XY) (T : Tile) : (setTile s t T).bundles = s.bundles := rfl
@[simp] theorem setTile_parts (s : State) (t : XY) (T : Tile) : (setTile s t T).parts = s.parts := rfl
@[simp] theorem setTile_mesh (s : State) (t : XY) (T : Tile) : (setTile s t T).mesh = s.mesh := rfl
@[simp] theorem setTile_dram (s : State) (t : XY) (T : Tile) : (setTile s t T).dram = s.dram := rfl
@[simp] theorem setTile_totals (s : State) (t : XY) (T : Tile) : (setTile s t T).totals = s.totals := rfl
@[simp] theorem setTile_events (s : State) (t : XY) (T : Tile) : (setTile s t T).events = s.events := rfl
@[simp] theorem setTile_boot (s : State) (t : XY) (T : Tile) : (setTile s t T).boot = s.boot := rfl
@[simp] theorem setTile_sec (s : State) (t : XY) (T : Tile) : (setTile s t T).sec = s.sec := rfl
@[simp] theorem setTile_clk (s : State) (t : XY) (T : Tile) : (setTile s t T).clk = s.clk := rfl
@[simp] theorem setTile_power (s : State) (t : XY) (T : Tile) : (setTile s t T).power = s.power := rfl
@[simp] theorem setTile_pins (s : State) (t : XY) (T : Tile) : (setTile s t T).pins = s.pins := rfl
@[simp] theorem setTile_out (s : State) (t : XY) (T : Tile) : (setTile s t T).out = s.out := rfl
@[simp] theorem setTile_loads (s : State) (t : XY) (T : Tile) : (setTile s t T).loads = s.loads := rfl
@[simp] theorem setTile_ctxs (s : State) (t : XY) (T : Tile) : (setTile s t T).ctxs = s.ctxs := rfl
@[simp] theorem setTile_portA (s : State) (t : XY) (T : Tile) : (setTile s t T).portA = s.portA := rfl
@[simp] theorem setTile_portB (s : State) (t : XY) (T : Tile) : (setTile s t T).portB = s.portB := rfl
@[simp] theorem setTile_xdt (s : State) (t : XY) (T : Tile) : (setTile s t T).xdt = s.xdt := rfl
@[simp] theorem setTile_aceel (s : State) (t : XY) (T : Tile) : (setTile s t T).aceel = s.aceel := rfl
@[simp] theorem setTile_saved (s : State) (t : XY) (T : Tile) : (setTile s t T).saved = s.saved := rfl
@[simp] theorem setTile_wideTags (s : State) (t : XY) (T : Tile) : (setTile s t T).wideTags = s.wideTags := rfl
@[simp] theorem setTile_hist (s : State) (t : XY) (T : Tile) : (setTile s t T).hist = s.hist := rfl
@[simp] theorem setTile_tests (s : State) (t : XY) (T : Tile) : (setTile s t T).tests = s.tests := rfl
@[simp] theorem setTile_free (s : State) (t : XY) (T : Tile) : (setTile s t T).free = s.free := rfl
@[simp] theorem setTile_turn (s : State) (t : XY) (T : Tile) : (setTile s t T).turn = s.turn := rfl

/-- Within the grid a tile's key names it. -/
theorem XY.key_inj {a b : XY} (ha : a.inGrid = true) (hb : b.inGrid = true) (h : a.key = b.key) : a = b := by
  obtain ⟨ax, ay⟩ := a
  obtain ⟨bx, by_⟩ := b
  simp only [XY.inGrid, XY.key, Bool.and_eq_true, decide_eq_true_eq] at *
  have h1 : ay = by_ := by omega
  have h2 : ax = bx := by omega
  rw [h1, h2]

theorem tileLive_inGrid {s : State} {t : XY} (h : tileLive s t = true) : t.inGrid = true := by
  simp only [tileLive, Bool.and_eq_true] at h
  exact h.1

theorem canIssue_live {s : State} {t : XY} (h : canIssue s t = true) : tileLive s t = true := by
  simp only [canIssue, Bool.and_eq_true] at h
  exact h.1.1.1.1.1.1

theorem ok_tiles {s : State} (h : s.ok = true) : mwf ({} : Tile) s.tiles = true := by
  simp only [State.ok, Bool.and_eq_true] at h
  exact h.1.1

theorem ok_dram {s : State} (h : s.ok = true) : s.dram.mem.wf = true := by
  simp only [State.ok, Bool.and_eq_true] at h
  exact h.2

theorem Tile.ok_default : ({} : Tile).ok = true := by decide

theorem ok_tile {s : State} (h : s.ok = true) (t : XY) : (getTile s t).ok = true := by
  have h2 : s.tiles.all (fun e => e.2.ok) = true := by
    simp only [State.ok, Bool.and_eq_true] at h
    exact h.1.2
  rcases mget_mem (d := ({} : Tile)) (m := s.tiles) (k := t.key) with e | e
  · unfold getTile; rw [e]; exact Tile.ok_default
  · exact List.all_eq_true.1 h2 _ e

/-- A write of a sound tile keeps the state sound. -/
theorem ok_setTile {s : State} (h : s.ok = true) (t : XY) {T : Tile} (hT : T.ok = true) : (setTile s t T).ok = true := by
  have h1 := ok_tiles h
  have h2 := ok_dram h
  have h3 : s.tiles.all (fun e => e.2.ok) = true := by
    simp only [State.ok, Bool.and_eq_true] at h
    exact h.1.2
  simp only [State.ok, Bool.and_eq_true]
  refine ⟨⟨mwf_mset h1 _ _, ?_⟩, h2⟩
  apply List.all_eq_true.2
  intro e he
  rcases mem_mset he with he | he
  · subst he; exact hT
  · exact List.all_eq_true.1 h3 e he

theorem getTile_setTile_self {s : State} (h : s.ok = true) (t : XY) (T : Tile) : getTile (setTile s t T) t = T :=
  mget_mset_self _ (mwf_rising (ok_tiles h)) _ _

theorem getTile_setTile_ne (s : State) {t u : XY} (T : Tile) (h : XY.key u ≠ t.key) :
    getTile (setTile s t T) u = getTile s u := mget_mset_ne _ _ _ h

/-- A write of one tile changes that tile and nothing else. -/
theorem onlyTile_setTile (s : State) {t : XY} (T : Tile) (ht : t.inGrid = true) : OnlyTile t s (setTile s t T) :=
  ⟨rfl, fun _ hu hne => getTile_setTile_ne s T (fun e => hne (XY.key_inj hu ht e))⟩

/-! ### Registers -/

theorem Tile.ok_mem {T : Tile} (h : T.ok = true) : T.mem.wf = true := by
  simp only [Tile.ok, Bool.and_eq_true] at h
  exact h.1.1.1.1.1

theorem Tile.ok_g {T : Tile} (h : T.ok = true) : mwf (0 : Word64) T.g = true := by
  simp only [Tile.ok, Bool.and_eq_true] at h
  exact h.1.1.1.1.2

theorem Tile.ok_v {T : Tile} (h : T.ok = true) : mwf (0 : Vec) T.v = true := by
  simp only [Tile.ok, Bool.and_eq_true] at h
  exact h.1.1.2

/-- g0 reads 0 in every sound tile (R80). -/
theorem Tile.getG_zero {T : Tile} (h : T.ok = true) : T.getG 0 = 0 := by
  have h0 : T.g.all (fun e => decide (e.1 ≠ 0)) = true := by
    simp only [Tile.ok, Bool.and_eq_true] at h
    exact h.1.1.1.2
  rcases mget_mem (d := (0 : Word64)) (m := T.g) (k := (0 : Reg).toNat) with e | e
  · exact e
  · have := List.all_eq_true.1 h0 _ e
    simp at this

/-- A register after a write of a register: g0 stays 0 (R80). -/
theorem Tile.getG_setG {T : Tile} (h : T.ok = true) (d r : Reg) (v : Word64) :
    (T.setG d v).getG r = if r = d ∧ d ≠ 0 then v else T.getG r := by
  unfold Tile.setG
  split
  · rename_i hd
    rw [if_neg (by simp [hd])]
  · rename_i hd
    unfold Tile.getG
    split
    · rename_i hr
      rw [hr.1]
      exact mget_mset_self _ (mwf_rising (Tile.ok_g h)) _ _
    · rename_i hr
      refine mget_mset_ne _ _ _ ?_
      intro e
      exact hr ⟨BitVec.eq_of_toNat_eq e, hd⟩

theorem Tile.getV_setV {T : Tile} (h : T.ok = true) (d r : Reg) (v : Vec) :
    (T.setV d v).getV r = if r = d then v else T.getV r := by
  unfold Tile.setV Tile.getV
  split
  · rename_i hr
    rw [hr]
    exact mget_mset_self _ (mwf_rising (Tile.ok_v h)) _ _
  · rename_i hr
    refine mget_mset_ne _ _ _ (fun e => hr (BitVec.eq_of_toNat_eq e))

@[simp] theorem Tile.retire_g (T : Tile) (n : Nat) : (T.retire n).g = T.g := rfl
@[simp] theorem Tile.retire_v (T : Tile) (n : Nat) : (T.retire n).v = T.v := rfl
@[simp] theorem Tile.retire_mem (T : Tile) (n : Nat) : (T.retire n).mem = T.mem := rfl
@[simp] theorem Tile.retire_pc (T : Tile) (n : Nat) : (T.retire n).pc = T.pc + BitVec.ofNat 13 n := rfl
@[simp] theorem Tile.retire_st (T : Tile) (n : Nat) : (T.retire n).st = .run := rfl
@[simp] theorem Tile.retire_event (T : Tile) (n : Nat) : (T.retire n).event = T.event := rfl
@[simp] theorem Tile.retire_await (T : Tile) (n : Nat) : (T.retire n).await = T.await := rfl
@[simp] theorem Tile.retire_zeroising (T : Tile) (n : Nat) : (T.retire n).zeroising = T.zeroising := rfl
@[simp] theorem Tile.retire_fences (T : Tile) (n : Nat) : (T.retire n).fences = T.fences := rfl
@[simp] theorem Tile.retire_ecc (T : Tile) (n : Nat) : (T.retire n).ecc = T.ecc := rfl
@[simp] theorem Tile.retire_wback (T : Tile) (n : Nat) : (T.retire n).wback = T.wback := rfl
@[simp] theorem Tile.retire_raised (T : Tile) (n : Nat) : (T.retire n).raised = T.raised := rfl
@[simp] theorem Tile.retire_awaitV (T : Tile) (n : Nat) : (T.retire n).awaitV = T.awaitV := rfl
@[simp] theorem Tile.retire_mat (T : Tile) (n : Nat) : (T.retire n).mat = T.mat := rfl
@[simp] theorem Tile.retire_su (T : Tile) (n : Nat) : (T.retire n).su = T.su := rfl
@[simp] theorem Tile.addAct_g (T : Tile) (i n : Nat) : (T.addAct i n).g = T.g := rfl
@[simp] theorem Tile.addAct_v (T : Tile) (i n : Nat) : (T.addAct i n).v = T.v := rfl
@[simp] theorem Tile.addAct_mem (T : Tile) (i n : Nat) : (T.addAct i n).mem = T.mem := rfl
@[simp] theorem Tile.addAct_pc (T : Tile) (i n : Nat) : (T.addAct i n).pc = T.pc := rfl
@[simp] theorem Tile.setG_mem (T : Tile) (r : Reg) (v : Word64) : (T.setG r v).mem = T.mem := by
  unfold Tile.setG; split <;> rfl
@[simp] theorem Tile.setG_v (T : Tile) (r : Reg) (v : Word64) : (T.setG r v).v = T.v := by
  unfold Tile.setG; split <;> rfl
@[simp] theorem Tile.setG_pc (T : Tile) (r : Reg) (v : Word64) : (T.setG r v).pc = T.pc := by
  unfold Tile.setG; split <;> rfl
@[simp] theorem Tile.setG_await (T : Tile) (r : Reg) (v : Word64) : (T.setG r v).await = T.await := by
  unfold Tile.setG; split <;> rfl
@[simp] theorem Tile.setV_g (T : Tile) (r : Reg) (v : Vec) : (T.setV r v).g = T.g := rfl
@[simp] theorem Tile.setV_mem (T : Tile) (r : Reg) (v : Vec) : (T.setV r v).mem = T.mem := rfl
@[simp] theorem Tile.later_g (T : Tile) (h : Held) : (T.later h).g = T.g := rfl
@[simp] theorem Tile.later_v (T : Tile) (h : Held) : (T.later h).v = T.v := rfl
@[simp] theorem Tile.later_mem (T : Tile) (h : Held) : (T.later h).mem = T.mem := rfl
@[simp] theorem Tile.later_pc (T : Tile) (h : Held) : (T.later h).pc = T.pc := rfl
@[simp] theorem Tile.later_st (T : Tile) (h : Held) : (T.later h).st = T.st := rfl
@[simp] theorem Tile.later_ecc (T : Tile) (h : Held) : (T.later h).ecc = T.ecc := rfl
@[simp] theorem Tile.later_zeroising (T : Tile) (h : Held) : (T.later h).zeroising = T.zeroising := rfl
@[simp] theorem Tile.later_await (T : Tile) (h : Held) : (T.later h).await = T.await := rfl
@[simp] theorem Tile.later_awaitV (T : Tile) (h : Held) : (T.later h).awaitV = T.awaitV := rfl
@[simp] theorem Tile.later_event (T : Tile) (h : Held) : (T.later h).event = T.event := rfl
@[simp] theorem Tile.later_tx (T : Tile) (h : Held) : (T.later h).tx = T.tx := rfl
@[simp] theorem Tile.later_mat (T : Tile) (h : Held) : (T.later h).mat = T.mat := rfl
@[simp] theorem Tile.later_qu (T : Tile) (h : Held) : (T.later h).qu = T.qu := rfl
@[simp] theorem Tile.later_su (T : Tile) (h : Held) : (T.later h).su = T.su := rfl
@[simp] theorem Tile.later_fences (T : Tile) (h : Held) : (T.later h).fences = T.fences ++ [h] := rfl
@[simp] theorem Tile.getG_retire (T : Tile) (n : Nat) (r : Reg) : (T.retire n).getG r = T.getG r := rfl
@[simp] theorem Tile.getV_retire (T : Tile) (n : Nat) (r : Reg) : (T.retire n).getV r = T.getV r := rfl

/-! ### Fences (R105) -/

/-- Without an open local fence nothing is left behind. -/
theorem Tile.laterIf_free {T : Tile} (h : T.fenced = false) (x : Held) : T.laterIf x = T := by
  unfold Tile.laterIf; rw [h]; rfl

theorem Tile.laterIf_fenced {T : Tile} (h : T.fenced = true) (x : Held) : T.laterIf x = T.later x := by
  unfold Tile.laterIf; rw [h]; rfl

/-- A sweep of what stands behind fences loses nothing and invents nothing. -/
theorem freeGo_length (l : List Held) : ∀ a g : Bool, (freeGo a g l).1.length + (freeGo a g l).2.length = l.length := by
  induction l with
  | nil => intro a g; rfl
  | cons h r ih =>
    intro a g
    cases h <;> (try (have := ih a g; simp only [freeGo]; split <;> (simp only [List.length_cons]; omega)))
    case fence d x y => have := ih (a || x) (g || y); simp only [freeGo, List.length_cons]; omega

/-- A fence itself never leaves by a sweep. -/
theorem freeGo_fence (l : List Held) (d : Reg) (x y : Bool) : ∀ a g : Bool, Held.fence d x y ∉ (freeGo a g l).2 := by
  induction l with
  | nil => intro a g; simp [freeGo]
  | cons h r ih =>
    intro a g
    cases h <;> (try (have := ih a g; simp only [freeGo]; split <;> simp_all))
    case fence d' x' y' => exact ih (a || x') (g || y')

/-! ### The other updates: every field but the one that they write -/

@[simp] theorem setRow_pending (s : State) (f r : Nat) (v : Row) : (setRow s f r v).pending = s.pending := rfl
@[simp] theorem setRow_tiles (s : State) (f r : Nat) (v : Row) : (setRow s f r v).tiles = s.tiles := rfl
@[simp] theorem setRow_sites (s : State) (f r : Nat) (v : Row) : (setRow s f r v).sites = s.sites := rfl
@[simp] theorem setRow_blocks (s : State) (f r : Nat) (v : Row) : (setRow s f r v).blocks = s.blocks := rfl
@[simp] theorem setRow_fields (s : State) (f r : Nat) (v : Row) : (setRow s f r v).fields = s.fields := rfl
@[simp] theorem setRow_bundles (s : State) (f r : Nat) (v : Row) : (setRow s f r v).bundles = s.bundles := rfl
@[simp] theorem setRow_loads (s : State) (f r : Nat) (v : Row) : (setRow s f r v).loads = s.loads := rfl
@[simp] theorem setRow_parts (s : State) (f r : Nat) (v : Row) : (setRow s f r v).parts = s.parts := rfl
@[simp] theorem setRow_ctxs (s : State) (f r : Nat) (v : Row) : (setRow s f r v).ctxs = s.ctxs := rfl
@[simp] theorem setRow_mesh (s : State) (f r : Nat) (v : Row) : (setRow s f r v).mesh = s.mesh := rfl
@[simp] theorem setRow_dram (s : State) (f r : Nat) (v : Row) : (setRow s f r v).dram = s.dram := rfl
@[simp] theorem setRow_portA (s : State) (f r : Nat) (v : Row) : (setRow s f r v).portA = s.portA := rfl
@[simp] theorem setRow_portB (s : State) (f r : Nat) (v : Row) : (setRow s f r v).portB = s.portB := rfl
@[simp] theorem setRow_xdt (s : State) (f r : Nat) (v : Row) : (setRow s f r v).xdt = s.xdt := rfl
@[simp] theorem setRow_aceel (s : State) (f r : Nat) (v : Row) : (setRow s f r v).aceel = s.aceel := rfl
@[simp] theorem setRow_saved (s : State) (f r : Nat) (v : Row) : (setRow s f r v).saved = s.saved := rfl
@[simp] theorem setRow_totals (s : State) (f r : Nat) (v : Row) : (setRow s f r v).totals = s.totals := rfl
@[simp] theorem setRow_wideTags (s : State) (f r : Nat) (v : Row) : (setRow s f r v).wideTags = s.wideTags := rfl
@[simp] theorem setRow_hist (s : State) (f r : Nat) (v : Row) : (setRow s f r v).hist = s.hist := rfl
@[simp] theorem setRow_events (s : State) (f r : Nat) (v : Row) : (setRow s f r v).events = s.events := rfl
@[simp] theorem setRow_boot (s : State) (f r : Nat) (v : Row) : (setRow s f r v).boot = s.boot := rfl
@[simp] theorem setRow_tests (s : State) (f r : Nat) (v : Row) : (setRow s f r v).tests = s.tests := rfl
@[simp] theorem setRow_sec (s : State) (f r : Nat) (v : Row) : (setRow s f r v).sec = s.sec := rfl
@[simp] theorem setRow_clk (s : State) (f r : Nat) (v : Row) : (setRow s f r v).clk = s.clk := rfl
@[simp] theorem setRow_power (s : State) (f r : Nat) (v : Row) : (setRow s f r v).power = s.power := rfl
@[simp] theorem setRow_pins (s : State) (f r : Nat) (v : Row) : (setRow s f r v).pins = s.pins := rfl
@[simp] theorem setRow_out (s : State) (f r : Nat) (v : Row) : (setRow s f r v).out = s.out := rfl
@[simp] theorem setRow_free (s : State) (f r : Nat) (v : Row) : (setRow s f r v).free = s.free := rfl
@[simp] theorem setRow_turn (s : State) (f r : Nat) (v : Row) : (setRow s f r v).turn = s.turn := rfl
@[simp] theorem setField_pending (s : State) (f : Nat) (v : Field) : (setField s f v).pending = s.pending := rfl
@[simp] theorem setField_tiles (s : State) (f : Nat) (v : Field) : (setField s f v).tiles = s.tiles := rfl
@[simp] theorem setField_sites (s : State) (f : Nat) (v : Field) : (setField s f v).sites = s.sites := rfl
@[simp] theorem setField_rows (s : State) (f : Nat) (v : Field) : (setField s f v).rows = s.rows := rfl
@[simp] theorem setField_blocks (s : State) (f : Nat) (v : Field) : (setField s f v).blocks = s.blocks := rfl
@[simp] theorem setField_bundles (s : State) (f : Nat) (v : Field) : (setField s f v).bundles = s.bundles := rfl
@[simp] theorem setField_loads (s : State) (f : Nat) (v : Field) : (setField s f v).loads = s.loads := rfl
@[simp] theorem setField_parts (s : State) (f : Nat) (v : Field) : (setField s f v).parts = s.parts := rfl
@[simp] theorem setField_ctxs (s : State) (f : Nat) (v : Field) : (setField s f v).ctxs = s.ctxs := rfl
@[simp] theorem setField_mesh (s : State) (f : Nat) (v : Field) : (setField s f v).mesh = s.mesh := rfl
@[simp] theorem setField_dram (s : State) (f : Nat) (v : Field) : (setField s f v).dram = s.dram := rfl
@[simp] theorem setField_portA (s : State) (f : Nat) (v : Field) : (setField s f v).portA = s.portA := rfl
@[simp] theorem setField_portB (s : State) (f : Nat) (v : Field) : (setField s f v).portB = s.portB := rfl
@[simp] theorem setField_xdt (s : State) (f : Nat) (v : Field) : (setField s f v).xdt = s.xdt := rfl
@[simp] theorem setField_aceel (s : State) (f : Nat) (v : Field) : (setField s f v).aceel = s.aceel := rfl
@[simp] theorem setField_saved (s : State) (f : Nat) (v : Field) : (setField s f v).saved = s.saved := rfl
@[simp] theorem setField_totals (s : State) (f : Nat) (v : Field) : (setField s f v).totals = s.totals := rfl
@[simp] theorem setField_wideTags (s : State) (f : Nat) (v : Field) : (setField s f v).wideTags = s.wideTags := rfl
@[simp] theorem setField_hist (s : State) (f : Nat) (v : Field) : (setField s f v).hist = s.hist := rfl
@[simp] theorem setField_events (s : State) (f : Nat) (v : Field) : (setField s f v).events = s.events := rfl
@[simp] theorem setField_boot (s : State) (f : Nat) (v : Field) : (setField s f v).boot = s.boot := rfl
@[simp] theorem setField_tests (s : State) (f : Nat) (v : Field) : (setField s f v).tests = s.tests := rfl
@[simp] theorem setField_sec (s : State) (f : Nat) (v : Field) : (setField s f v).sec = s.sec := rfl
@[simp] theorem setField_clk (s : State) (f : Nat) (v : Field) : (setField s f v).clk = s.clk := rfl
@[simp] theorem setField_power (s : State) (f : Nat) (v : Field) : (setField s f v).power = s.power := rfl
@[simp] theorem setField_pins (s : State) (f : Nat) (v : Field) : (setField s f v).pins = s.pins := rfl
@[simp] theorem setField_out (s : State) (f : Nat) (v : Field) : (setField s f v).out = s.out := rfl
@[simp] theorem setField_free (s : State) (f : Nat) (v : Field) : (setField s f v).free = s.free := rfl
@[simp] theorem setField_turn (s : State) (f : Nat) (v : Field) : (setField s f v).turn = s.turn := rfl
@[simp] theorem setBlock_pending (s : State) (b : Nat) (v : Block) : (setBlock s b v).pending = s.pending := rfl
@[simp] theorem setBlock_tiles (s : State) (b : Nat) (v : Block) : (setBlock s b v).tiles = s.tiles := rfl
@[simp] theorem setBlock_sites (s : State) (b : Nat) (v : Block) : (setBlock s b v).sites = s.sites := rfl
@[simp] theorem setBlock_rows (s : State) (b : Nat) (v : Block) : (setBlock s b v).rows = s.rows := rfl
@[simp] theorem setBlock_fields (s : State) (b : Nat) (v : Block) : (setBlock s b v).fields = s.fields := rfl
@[simp] theorem setBlock_bundles (s : State) (b : Nat) (v : Block) : (setBlock s b v).bundles = s.bundles := rfl
@[simp] theorem setBlock_loads (s : State) (b : Nat) (v : Block) : (setBlock s b v).loads = s.loads := rfl
@[simp] theorem setBlock_parts (s : State) (b : Nat) (v : Block) : (setBlock s b v).parts = s.parts := rfl
@[simp] theorem setBlock_ctxs (s : State) (b : Nat) (v : Block) : (setBlock s b v).ctxs = s.ctxs := rfl
@[simp] theorem setBlock_mesh (s : State) (b : Nat) (v : Block) : (setBlock s b v).mesh = s.mesh := rfl
@[simp] theorem setBlock_dram (s : State) (b : Nat) (v : Block) : (setBlock s b v).dram = s.dram := rfl
@[simp] theorem setBlock_portA (s : State) (b : Nat) (v : Block) : (setBlock s b v).portA = s.portA := rfl
@[simp] theorem setBlock_portB (s : State) (b : Nat) (v : Block) : (setBlock s b v).portB = s.portB := rfl
@[simp] theorem setBlock_xdt (s : State) (b : Nat) (v : Block) : (setBlock s b v).xdt = s.xdt := rfl
@[simp] theorem setBlock_aceel (s : State) (b : Nat) (v : Block) : (setBlock s b v).aceel = s.aceel := rfl
@[simp] theorem setBlock_saved (s : State) (b : Nat) (v : Block) : (setBlock s b v).saved = s.saved := rfl
@[simp] theorem setBlock_totals (s : State) (b : Nat) (v : Block) : (setBlock s b v).totals = s.totals := rfl
@[simp] theorem setBlock_wideTags (s : State) (b : Nat) (v : Block) : (setBlock s b v).wideTags = s.wideTags := rfl
@[simp] theorem setBlock_hist (s : State) (b : Nat) (v : Block) : (setBlock s b v).hist = s.hist := rfl
@[simp] theorem setBlock_events (s : State) (b : Nat) (v : Block) : (setBlock s b v).events = s.events := rfl
@[simp] theorem setBlock_boot (s : State) (b : Nat) (v : Block) : (setBlock s b v).boot = s.boot := rfl
@[simp] theorem setBlock_tests (s : State) (b : Nat) (v : Block) : (setBlock s b v).tests = s.tests := rfl
@[simp] theorem setBlock_sec (s : State) (b : Nat) (v : Block) : (setBlock s b v).sec = s.sec := rfl
@[simp] theorem setBlock_clk (s : State) (b : Nat) (v : Block) : (setBlock s b v).clk = s.clk := rfl
@[simp] theorem setBlock_power (s : State) (b : Nat) (v : Block) : (setBlock s b v).power = s.power := rfl
@[simp] theorem setBlock_pins (s : State) (b : Nat) (v : Block) : (setBlock s b v).pins = s.pins := rfl
@[simp] theorem setBlock_out (s : State) (b : Nat) (v : Block) : (setBlock s b v).out = s.out := rfl
@[simp] theorem setBlock_free (s : State) (b : Nat) (v : Block) : (setBlock s b v).free = s.free := rfl
@[simp] theorem setBlock_turn (s : State) (b : Nat) (v : Block) : (setBlock s b v).turn = s.turn := rfl
@[simp] theorem setSite_pending (s : State) (a : SiteId) (v : Site) : (setSite s a v).pending = s.pending := rfl
@[simp] theorem setSite_tiles (s : State) (a : SiteId) (v : Site) : (setSite s a v).tiles = s.tiles := rfl
@[simp] theorem setSite_rows (s : State) (a : SiteId) (v : Site) : (setSite s a v).rows = s.rows := rfl
@[simp] theorem setSite_blocks (s : State) (a : SiteId) (v : Site) : (setSite s a v).blocks = s.blocks := rfl
@[simp] theorem setSite_fields (s : State) (a : SiteId) (v : Site) : (setSite s a v).fields = s.fields := rfl
@[simp] theorem setSite_bundles (s : State) (a : SiteId) (v : Site) : (setSite s a v).bundles = s.bundles := rfl
@[simp] theorem setSite_loads (s : State) (a : SiteId) (v : Site) : (setSite s a v).loads = s.loads := rfl
@[simp] theorem setSite_parts (s : State) (a : SiteId) (v : Site) : (setSite s a v).parts = s.parts := rfl
@[simp] theorem setSite_ctxs (s : State) (a : SiteId) (v : Site) : (setSite s a v).ctxs = s.ctxs := rfl
@[simp] theorem setSite_mesh (s : State) (a : SiteId) (v : Site) : (setSite s a v).mesh = s.mesh := rfl
@[simp] theorem setSite_dram (s : State) (a : SiteId) (v : Site) : (setSite s a v).dram = s.dram := rfl
@[simp] theorem setSite_portA (s : State) (a : SiteId) (v : Site) : (setSite s a v).portA = s.portA := rfl
@[simp] theorem setSite_portB (s : State) (a : SiteId) (v : Site) : (setSite s a v).portB = s.portB := rfl
@[simp] theorem setSite_xdt (s : State) (a : SiteId) (v : Site) : (setSite s a v).xdt = s.xdt := rfl
@[simp] theorem setSite_aceel (s : State) (a : SiteId) (v : Site) : (setSite s a v).aceel = s.aceel := rfl
@[simp] theorem setSite_saved (s : State) (a : SiteId) (v : Site) : (setSite s a v).saved = s.saved := rfl
@[simp] theorem setSite_totals (s : State) (a : SiteId) (v : Site) : (setSite s a v).totals = s.totals := rfl
@[simp] theorem setSite_wideTags (s : State) (a : SiteId) (v : Site) : (setSite s a v).wideTags = s.wideTags := rfl
@[simp] theorem setSite_hist (s : State) (a : SiteId) (v : Site) : (setSite s a v).hist = s.hist := rfl
@[simp] theorem setSite_events (s : State) (a : SiteId) (v : Site) : (setSite s a v).events = s.events := rfl
@[simp] theorem setSite_boot (s : State) (a : SiteId) (v : Site) : (setSite s a v).boot = s.boot := rfl
@[simp] theorem setSite_tests (s : State) (a : SiteId) (v : Site) : (setSite s a v).tests = s.tests := rfl
@[simp] theorem setSite_sec (s : State) (a : SiteId) (v : Site) : (setSite s a v).sec = s.sec := rfl
@[simp] theorem setSite_clk (s : State) (a : SiteId) (v : Site) : (setSite s a v).clk = s.clk := rfl
@[simp] theorem setSite_power (s : State) (a : SiteId) (v : Site) : (setSite s a v).power = s.power := rfl
@[simp] theorem setSite_pins (s : State) (a : SiteId) (v : Site) : (setSite s a v).pins = s.pins := rfl
@[simp] theorem setSite_out (s : State) (a : SiteId) (v : Site) : (setSite s a v).out = s.out := rfl
@[simp] theorem setSite_free (s : State) (a : SiteId) (v : Site) : (setSite s a v).free = s.free := rfl
@[simp] theorem setSite_turn (s : State) (a : SiteId) (v : Site) : (setSite s a v).turn = s.turn := rfl
@[simp] theorem setPart_pending (s : State) (p : Nat) (v : Part) : (setPart s p v).pending = s.pending := rfl
@[simp] theorem setPart_tiles (s : State) (p : Nat) (v : Part) : (setPart s p v).tiles = s.tiles := rfl
@[simp] theorem setPart_sites (s : State) (p : Nat) (v : Part) : (setPart s p v).sites = s.sites := rfl
@[simp] theorem setPart_rows (s : State) (p : Nat) (v : Part) : (setPart s p v).rows = s.rows := rfl
@[simp] theorem setPart_blocks (s : State) (p : Nat) (v : Part) : (setPart s p v).blocks = s.blocks := rfl
@[simp] theorem setPart_fields (s : State) (p : Nat) (v : Part) : (setPart s p v).fields = s.fields := rfl
@[simp] theorem setPart_bundles (s : State) (p : Nat) (v : Part) : (setPart s p v).bundles = s.bundles := rfl
@[simp] theorem setPart_loads (s : State) (p : Nat) (v : Part) : (setPart s p v).loads = s.loads := rfl
@[simp] theorem setPart_ctxs (s : State) (p : Nat) (v : Part) : (setPart s p v).ctxs = s.ctxs := rfl
@[simp] theorem setPart_mesh (s : State) (p : Nat) (v : Part) : (setPart s p v).mesh = s.mesh := rfl
@[simp] theorem setPart_dram (s : State) (p : Nat) (v : Part) : (setPart s p v).dram = s.dram := rfl
@[simp] theorem setPart_portA (s : State) (p : Nat) (v : Part) : (setPart s p v).portA = s.portA := rfl
@[simp] theorem setPart_portB (s : State) (p : Nat) (v : Part) : (setPart s p v).portB = s.portB := rfl
@[simp] theorem setPart_xdt (s : State) (p : Nat) (v : Part) : (setPart s p v).xdt = s.xdt := rfl
@[simp] theorem setPart_aceel (s : State) (p : Nat) (v : Part) : (setPart s p v).aceel = s.aceel := rfl
@[simp] theorem setPart_saved (s : State) (p : Nat) (v : Part) : (setPart s p v).saved = s.saved := rfl
@[simp] theorem setPart_totals (s : State) (p : Nat) (v : Part) : (setPart s p v).totals = s.totals := rfl
@[simp] theorem setPart_wideTags (s : State) (p : Nat) (v : Part) : (setPart s p v).wideTags = s.wideTags := rfl
@[simp] theorem setPart_hist (s : State) (p : Nat) (v : Part) : (setPart s p v).hist = s.hist := rfl
@[simp] theorem setPart_events (s : State) (p : Nat) (v : Part) : (setPart s p v).events = s.events := rfl
@[simp] theorem setPart_boot (s : State) (p : Nat) (v : Part) : (setPart s p v).boot = s.boot := rfl
@[simp] theorem setPart_tests (s : State) (p : Nat) (v : Part) : (setPart s p v).tests = s.tests := rfl
@[simp] theorem setPart_sec (s : State) (p : Nat) (v : Part) : (setPart s p v).sec = s.sec := rfl
@[simp] theorem setPart_clk (s : State) (p : Nat) (v : Part) : (setPart s p v).clk = s.clk := rfl
@[simp] theorem setPart_power (s : State) (p : Nat) (v : Part) : (setPart s p v).power = s.power := rfl
@[simp] theorem setPart_pins (s : State) (p : Nat) (v : Part) : (setPart s p v).pins = s.pins := rfl
@[simp] theorem setPart_out (s : State) (p : Nat) (v : Part) : (setPart s p v).out = s.out := rfl
@[simp] theorem setPart_free (s : State) (p : Nat) (v : Part) : (setPart s p v).free = s.free := rfl
@[simp] theorem setPart_turn (s : State) (p : Nat) (v : Part) : (setPart s p v).turn = s.turn := rfl
@[simp] theorem addTotal_pending (s : State) (ix sub n : Nat) : (addTotal s ix sub n).pending = s.pending := rfl
@[simp] theorem addTotal_tiles (s : State) (ix sub n : Nat) : (addTotal s ix sub n).tiles = s.tiles := rfl
@[simp] theorem addTotal_sites (s : State) (ix sub n : Nat) : (addTotal s ix sub n).sites = s.sites := rfl
@[simp] theorem addTotal_rows (s : State) (ix sub n : Nat) : (addTotal s ix sub n).rows = s.rows := rfl
@[simp] theorem addTotal_blocks (s : State) (ix sub n : Nat) : (addTotal s ix sub n).blocks = s.blocks := rfl
@[simp] theorem addTotal_fields (s : State) (ix sub n : Nat) : (addTotal s ix sub n).fields = s.fields := rfl
@[simp] theorem addTotal_bundles (s : State) (ix sub n : Nat) : (addTotal s ix sub n).bundles = s.bundles := rfl
@[simp] theorem addTotal_loads (s : State) (ix sub n : Nat) : (addTotal s ix sub n).loads = s.loads := rfl
@[simp] theorem addTotal_parts (s : State) (ix sub n : Nat) : (addTotal s ix sub n).parts = s.parts := rfl
@[simp] theorem addTotal_ctxs (s : State) (ix sub n : Nat) : (addTotal s ix sub n).ctxs = s.ctxs := rfl
@[simp] theorem addTotal_mesh (s : State) (ix sub n : Nat) : (addTotal s ix sub n).mesh = s.mesh := rfl
@[simp] theorem addTotal_dram (s : State) (ix sub n : Nat) : (addTotal s ix sub n).dram = s.dram := rfl
@[simp] theorem addTotal_portA (s : State) (ix sub n : Nat) : (addTotal s ix sub n).portA = s.portA := rfl
@[simp] theorem addTotal_portB (s : State) (ix sub n : Nat) : (addTotal s ix sub n).portB = s.portB := rfl
@[simp] theorem addTotal_xdt (s : State) (ix sub n : Nat) : (addTotal s ix sub n).xdt = s.xdt := rfl
@[simp] theorem addTotal_aceel (s : State) (ix sub n : Nat) : (addTotal s ix sub n).aceel = s.aceel := rfl
@[simp] theorem addTotal_saved (s : State) (ix sub n : Nat) : (addTotal s ix sub n).saved = s.saved := rfl
@[simp] theorem addTotal_wideTags (s : State) (ix sub n : Nat) : (addTotal s ix sub n).wideTags = s.wideTags := rfl
@[simp] theorem addTotal_hist (s : State) (ix sub n : Nat) : (addTotal s ix sub n).hist = s.hist := rfl
@[simp] theorem addTotal_events (s : State) (ix sub n : Nat) : (addTotal s ix sub n).events = s.events := rfl
@[simp] theorem addTotal_boot (s : State) (ix sub n : Nat) : (addTotal s ix sub n).boot = s.boot := rfl
@[simp] theorem addTotal_tests (s : State) (ix sub n : Nat) : (addTotal s ix sub n).tests = s.tests := rfl
@[simp] theorem addTotal_sec (s : State) (ix sub n : Nat) : (addTotal s ix sub n).sec = s.sec := rfl
@[simp] theorem addTotal_clk (s : State) (ix sub n : Nat) : (addTotal s ix sub n).clk = s.clk := rfl
@[simp] theorem addTotal_power (s : State) (ix sub n : Nat) : (addTotal s ix sub n).power = s.power := rfl
@[simp] theorem addTotal_pins (s : State) (ix sub n : Nat) : (addTotal s ix sub n).pins = s.pins := rfl
@[simp] theorem addTotal_out (s : State) (ix sub n : Nat) : (addTotal s ix sub n).out = s.out := rfl
@[simp] theorem addTotal_free (s : State) (ix sub n : Nat) : (addTotal s ix sub n).free = s.free := rfl
@[simp] theorem addTotal_turn (s : State) (ix sub n : Nat) : (addTotal s ix sub n).turn = s.turn := rfl
@[simp] theorem setConn_pending (s : State) (c : Nat) (v : Conn) : (setConn s c v).pending = s.pending := rfl
@[simp] theorem setConn_tiles (s : State) (c : Nat) (v : Conn) : (setConn s c v).tiles = s.tiles := rfl
@[simp] theorem setConn_sites (s : State) (c : Nat) (v : Conn) : (setConn s c v).sites = s.sites := rfl
@[simp] theorem setConn_rows (s : State) (c : Nat) (v : Conn) : (setConn s c v).rows = s.rows := rfl
@[simp] theorem setConn_blocks (s : State) (c : Nat) (v : Conn) : (setConn s c v).blocks = s.blocks := rfl
@[simp] theorem setConn_fields (s : State) (c : Nat) (v : Conn) : (setConn s c v).fields = s.fields := rfl
@[simp] theorem setConn_bundles (s : State) (c : Nat) (v : Conn) : (setConn s c v).bundles = s.bundles := rfl
@[simp] theorem setConn_loads (s : State) (c : Nat) (v : Conn) : (setConn s c v).loads = s.loads := rfl
@[simp] theorem setConn_parts (s : State) (c : Nat) (v : Conn) : (setConn s c v).parts = s.parts := rfl
@[simp] theorem setConn_ctxs (s : State) (c : Nat) (v : Conn) : (setConn s c v).ctxs = s.ctxs := rfl
@[simp] theorem setConn_mesh (s : State) (c : Nat) (v : Conn) : (setConn s c v).mesh = s.mesh := rfl
@[simp] theorem setConn_dram (s : State) (c : Nat) (v : Conn) : (setConn s c v).dram = s.dram := rfl
@[simp] theorem setConn_portA (s : State) (c : Nat) (v : Conn) : (setConn s c v).portA = s.portA := rfl
@[simp] theorem setConn_portB (s : State) (c : Nat) (v : Conn) : (setConn s c v).portB = s.portB := rfl
@[simp] theorem setConn_aceel (s : State) (c : Nat) (v : Conn) : (setConn s c v).aceel = s.aceel := rfl
@[simp] theorem setConn_saved (s : State) (c : Nat) (v : Conn) : (setConn s c v).saved = s.saved := rfl
@[simp] theorem setConn_totals (s : State) (c : Nat) (v : Conn) : (setConn s c v).totals = s.totals := rfl
@[simp] theorem setConn_wideTags (s : State) (c : Nat) (v : Conn) : (setConn s c v).wideTags = s.wideTags := rfl
@[simp] theorem setConn_hist (s : State) (c : Nat) (v : Conn) : (setConn s c v).hist = s.hist := rfl
@[simp] theorem setConn_events (s : State) (c : Nat) (v : Conn) : (setConn s c v).events = s.events := rfl
@[simp] theorem setConn_boot (s : State) (c : Nat) (v : Conn) : (setConn s c v).boot = s.boot := rfl
@[simp] theorem setConn_tests (s : State) (c : Nat) (v : Conn) : (setConn s c v).tests = s.tests := rfl
@[simp] theorem setConn_sec (s : State) (c : Nat) (v : Conn) : (setConn s c v).sec = s.sec := rfl
@[simp] theorem setConn_clk (s : State) (c : Nat) (v : Conn) : (setConn s c v).clk = s.clk := rfl
@[simp] theorem setConn_power (s : State) (c : Nat) (v : Conn) : (setConn s c v).power = s.power := rfl
@[simp] theorem setConn_pins (s : State) (c : Nat) (v : Conn) : (setConn s c v).pins = s.pins := rfl
@[simp] theorem setConn_out (s : State) (c : Nat) (v : Conn) : (setConn s c v).out = s.out := rfl
@[simp] theorem setConn_free (s : State) (c : Nat) (v : Conn) : (setConn s c v).free = s.free := rfl
@[simp] theorem setConn_turn (s : State) (c : Nat) (v : Conn) : (setConn s c v).turn = s.turn := rfl
@[simp] theorem putPkt_sites (s : State) (i : Nat) (k : Pkt) : (putPkt s i k).sites = s.sites := rfl
@[simp] theorem putPkt_rows (s : State) (i : Nat) (k : Pkt) : (putPkt s i k).rows = s.rows := rfl
@[simp] theorem putPkt_blocks (s : State) (i : Nat) (k : Pkt) : (putPkt s i k).blocks = s.blocks := rfl
@[simp] theorem putPkt_fields (s : State) (i : Nat) (k : Pkt) : (putPkt s i k).fields = s.fields := rfl
@[simp] theorem putPkt_bundles (s : State) (i : Nat) (k : Pkt) : (putPkt s i k).bundles = s.bundles := rfl
@[simp] theorem putPkt_loads (s : State) (i : Nat) (k : Pkt) : (putPkt s i k).loads = s.loads := rfl
@[simp] theorem putPkt_parts (s : State) (i : Nat) (k : Pkt) : (putPkt s i k).parts = s.parts := rfl
@[simp] theorem putPkt_ctxs (s : State) (i : Nat) (k : Pkt) : (putPkt s i k).ctxs = s.ctxs := rfl
@[simp] theorem putPkt_portA (s : State) (i : Nat) (k : Pkt) : (putPkt s i k).portA = s.portA := rfl
@[simp] theorem putPkt_portB (s : State) (i : Nat) (k : Pkt) : (putPkt s i k).portB = s.portB := rfl
@[simp] theorem putPkt_xdt (s : State) (i : Nat) (k : Pkt) : (putPkt s i k).xdt = s.xdt := rfl
@[simp] theorem putPkt_aceel (s : State) (i : Nat) (k : Pkt) : (putPkt s i k).aceel = s.aceel := rfl
@[simp] theorem putPkt_saved (s : State) (i : Nat) (k : Pkt) : (putPkt s i k).saved = s.saved := rfl
@[simp] theorem putPkt_totals (s : State) (i : Nat) (k : Pkt) : (putPkt s i k).totals = s.totals := rfl
@[simp] theorem putPkt_wideTags (s : State) (i : Nat) (k : Pkt) : (putPkt s i k).wideTags = s.wideTags := rfl
@[simp] theorem putPkt_hist (s : State) (i : Nat) (k : Pkt) : (putPkt s i k).hist = s.hist := rfl
@[simp] theorem putPkt_events (s : State) (i : Nat) (k : Pkt) : (putPkt s i k).events = s.events := rfl
@[simp] theorem putPkt_boot (s : State) (i : Nat) (k : Pkt) : (putPkt s i k).boot = s.boot := rfl
@[simp] theorem putPkt_tests (s : State) (i : Nat) (k : Pkt) : (putPkt s i k).tests = s.tests := rfl
@[simp] theorem putPkt_sec (s : State) (i : Nat) (k : Pkt) : (putPkt s i k).sec = s.sec := rfl
@[simp] theorem putPkt_clk (s : State) (i : Nat) (k : Pkt) : (putPkt s i k).clk = s.clk := rfl
@[simp] theorem putPkt_power (s : State) (i : Nat) (k : Pkt) : (putPkt s i k).power = s.power := rfl
@[simp] theorem putPkt_pins (s : State) (i : Nat) (k : Pkt) : (putPkt s i k).pins = s.pins := rfl
@[simp] theorem putPkt_out (s : State) (i : Nat) (k : Pkt) : (putPkt s i k).out = s.out := rfl
@[simp] theorem putPkt_free (s : State) (i : Nat) (k : Pkt) : (putPkt s i k).free = s.free := rfl
@[simp] theorem putPkt_turn (s : State) (i : Nat) (k : Pkt) : (putPkt s i k).turn = s.turn := rfl

theorem getField_setField_self {s : State} (h : mrising s.fields = true) (f : Nat) (v : Field) : getField (setField s f v) f = v :=
  mget_mset_self _ h _ _
theorem getField_setField_ne (s : State) {f g : Nat} (v : Field) (h : g ≠ f) : getField (setField s f v) g = getField s g :=
  mget_mset_ne _ _ _ h
theorem getPart_setPart_self {s : State} (h : mrising s.parts = true) (p : Nat) (v : Part) : getPart (setPart s p v) p = v :=
  mget_mset_self _ h _ _
theorem getPart_setPart_ne (s : State) {p q : Nat} (v : Part) (h : q ≠ p) : getPart (setPart s p v) q = getPart s q :=
  mget_mset_ne _ _ _ h
theorem getBlock_setBlock_self {s : State} (h : mrising s.blocks = true) (b : Nat) (v : Block) : getBlock (setBlock s b v) b = v :=
  mget_mset_self _ h _ _
theorem getSite_setSite_self {s : State} (h : mrising s.sites = true) (a : SiteId) (v : Site) : getSite (setSite s a v) a = v :=
  mget_mset_self _ h _ _

/-- Every write of a part of the state but that of a tile keeps the state sound: the tiles and the DRAM stand. -/
theorem ok_of_same {s u : State} (h : s.ok = true) (ht : u.tiles = s.tiles) (hd : u.dram.mem = s.dram.mem) : u.ok = true := by
  simp only [State.ok, ht, hd] at *
  exact h

/-! ### Other shared operations -/

/-- All that `stopCore` can do: the core goes to FAULT, or, where it did not run, only the event is set (R107, R108). -/
theorem stopCore_cases (s : State) (t : XY) (b : Nat) :
    stopCore s t b = faultCore s t b ∨ stopCore s t b = setEvent s t b := by
  unfold stopCore
  dsimp only
  split
  · exact .inl rfl
  · exact .inr rfl

/-- A write without a parity error is a plain write. -/
@[simp] theorem padSend_none (s : State) (t : XY) (a : Nat) (l : List Byte) : padSend s t a l none = padWrite s t a l := rfl

/-- A bad byte beyond the write poisons nothing (R214). -/
theorem padSend_beyond (s : State) (t : XY) (a : Nat) {l : List Byte} {i : Nat} (h : l.length ≤ i) :
    padSend s t a l (some i) = padWrite s t a l := by
  unfold padSend
  dsimp only
  rw [if_neg (by omega)]

@[simp] theorem padPut_none (s : State) (t : XY) (a : Nat) (l : List Byte) : padPut s t a l none = padWrite s t a l := rfl

/-- All that a checked write can do: a plain write, or one whose bad byte poisons its word and taints the step (R214, R456). -/
theorem padPut_cases (s : State) (t : XY) (a : Nat) (l : List Byte) (bad : Option Nat) :
    padPut s t a l bad = padWrite s t a l ∨
      ∃ i, bad = some i ∧ i < l.length ∧ padPut s t a l bad = taintAt (padSend s t a l bad) t := by
  cases bad with
  | none => exact .inl rfl
  | some i =>
    unfold padPut
    dsimp only
    split
    · exact .inr ⟨i, rfl, ‹_›, rfl⟩
    · exact .inl (padSend_beyond s t a (by omega))

/-- All that a taint can do: nothing to a step already tainted; else it marks and counts it, and under ROLLBACK a context reset begins
(R146, R147). -/
theorem taintStep_cases (s : State) (p : Nat) :
    (taintStep s p = s ∧ (getPart s p).taint = true) ∨
      (∃ u, u = addTotal (setPart s p { getPart s p with taint := true }) 0x7880 4 1 ∧
        (taintStep s p = u ∨ taintStep s p = beginContextReset u p true false)) := by
  unfold taintStep
  dsimp only
  split
  · exact .inl ⟨rfl, ‹_›⟩
  · split
    · exact .inr ⟨_, rfl, .inr rfl⟩
    · exact .inr ⟨_, rfl, .inl rfl⟩

/-- Outside a partition nothing is tainted. -/
theorem taintAt_free {s : State} {t : XY} (h : partOf s t = none) : taintAt s t = s := by
  unfold taintAt; rw [h]

/-- A read of a line that is not poisoned and meets no error changes nothing and refuses nothing (R234). -/
theorem readLine_clean {s : State} {l : Nat} (dc : Nat) (h : linePoison s l = false) : readLine dc l .none s = (s, false) := by
  unfold readLine; rw [h]; rfl

theorem readLine_poisoned {s : State} {l : Nat} (dc : Nat) (err : LineErr) (h : linePoison s l = true) :
    readLine dc l err s = (addTotal s 0x4800 7 1, true) := by
  unfold readLine; rw [h]; rfl

/-- The same of every line of a request. -/
theorem readLines_clean {s : State} (dc : Nat) {ls : List Nat} (h : ∀ l ∈ ls, linePoison s l = false) :
    readLines dc ls [] s = (s, false) := by
  induction ls with
  | nil => rfl
  | cons l r ih =>
    simp only [readLines, List.headD, List.tail, readLine_clean dc (h l List.mem_cons_self),
      ih (fun x hx => h x (List.mem_cons_of_mem _ hx)), Bool.or_self]

@[simp] theorem putPkt_tiles (s : State) (pid : Nat) (k : Pkt) : (putPkt s pid k).tiles = s.tiles := rfl
@[simp] theorem putPkt_dram (s : State) (pid : Nat) (k : Pkt) : (putPkt s pid k).dram = s.dram := rfl
@[simp] theorem putPkt_pending (s : State) (pid : Nat) (k : Pkt) : (putPkt s pid k).pending = s.pending := rfl
@[simp] theorem hop_tiles (s : State) (pid : Nat) (k : Pkt) : (hop s pid k).tiles = s.tiles := rfl
@[simp] theorem hop_dram (s : State) (pid : Nat) (k : Pkt) : (hop s pid k).dram = s.dram := rfl
@[simp] theorem hop_pending (s : State) (pid : Nat) (k : Pkt) : (hop s pid k).pending = s.pending := rfl

/-- Every other train stays as it is when one hops. -/
theorem hop_others (s : State) (pid : Nat) (k : Pkt) {q : Nat} (h : q ≠ pid) :
    mget k (hop s pid k).mesh.pkts q = mget k s.mesh.pkts q := by
  simp only [hop, putPkt]
  rw [mget_mput_ne _ _ _ h]
  split <;> try rfl
  split <;> rfl

/-! ### Issue -/

/-- All that `issue` can do: nothing; a fault; a hold; the effect. -/
theorem issue_cases (s : State) (t : XY) (n : Nat) (regs : List Reg) (good : Bool) (hold : Tile → Bool) (act : Tile → State) :
    issue s t n regs good hold act = .next s ∨ issue s t n regs good hold act = .next (faultCore s t evAddrFault) ∨
      issue s t n regs good hold act = .next (waitCore s t) ∨ issue s t n regs good hold act = .next (act (getTile s t)) := by
  unfold issue
  dsimp only
  split
  · split
    · exact .inr (.inl rfl)
    · split
      · exact .inr (.inr (.inl rfl))
      · exact .inr (.inr (.inr rfl))
  · exact .inl rfl

/-- Where an instruction issues and nothing holds it, it takes its effect. -/
theorem issue_issues {s : State} {t : XY} {n : Nat} {regs : List Reg} {good : Bool} {hold : Tile → Bool} {act : Tile → State}
    (h : Issues s t n regs) (hg : good = true) (hh : hold (getTile s t) = false) :
    issue s t n regs good hold act = .next (act (getTile s t)) := by
  obtain ⟨h1, h2, h3⟩ := h
  unfold issue
  rw [if_pos h1]
  have hb : (decide (4096 < (getTile s t).pc.toNat + n) || !good) = false := by
    rw [hg, decide_eq_false (by omega)]
    rfl
  have hr : regs.any (fun r => (getTile s t).await.contains r) = false := by
    rw [List.any_eq_false]
    intro r hr
    simpa using h3 r hr
  simp only [hb, hr, hh, Bool.or_self, Bool.false_eq_true, if_false]

/-- The effect of an instruction that only writes its tile. -/
theorem leaves_of_issues {i : Instr} {s : State} {t : XY} {n : Nat} {regs : List Reg} {T : Tile} (hi : s.ok = true)
    (h : Issues s t n regs) (he : exec i s = .next (setTile s t T)) : Leaves i s t T :=
  ⟨_, he, getTile_setTile_self hi t T, onlyTile_setTile s T (tileLive_inGrid (canIssue_live h.1))⟩

/-! ### Rewriting a range of the DRAM keeps its canonical form -/

theorem mrising_filter {α : Type} (f : Nat × α → Bool) {m : SMap α} (h : mrising m = true) : mrising (m.filter f) = true := by
  induction m with
  | nil => rfl
  | cons p r ih =>
    rw [mrising_cons] at h
    by_cases hp : f p = true
    · rw [List.filter_cons_of_pos hp, mrising_cons]
      exact ⟨fun e he => h.1 e (List.mem_filter.1 he).1, ih h.2⟩
    · rw [List.filter_cons_of_neg hp]
      exact ih h.2

theorem Memory.wf_filter (f : Nat × Byte → Bool) {m : Memory} (h : m.wf = true) : Memory.wf (m.filter f) = true := by
  have h' := (mwf_iff _ m).1 h
  exact (mwf_iff _ _).2 ⟨mrising_filter f h'.1, fun e he => h'.2 e (List.mem_filter.1 he).1⟩

theorem Memory.wf_setBytes (l : List (Nat × Byte)) {m : Memory} (h : m.wf = true) :
    Memory.wf (l.foldl (fun m c => m.setByte c.1 c.2) m) = true := by
  induction l generalizing m with
  | nil => exact h
  | cons c r ih => exact ih (Memory.wf_setByte h c.1 c.2)

theorem replaceRange_wf {m : Memory} (h : m.wf = true) (lo hi : Nat) (new : Memory) : (replaceRange m lo hi new).wf = true :=
  Memory.wf_setBytes new (Memory.wf_filter _ h)

/-- What the block itself writes into a range of DRAM leaves the memory in canonical form. -/
theorem rewriteDram_wf {s : State} (h : s.dram.mem.wf = true) (lo hi : Nat) (new : Memory) :
    (rewriteDram s lo hi new).dram.mem.wf = true :=
  Memory.wf_setBytes _ (replaceRange_wf h lo hi _)

end Sys2Proof.Machine
end

