-- ==== Sys2Proof/Certificates/Slice0/Obligations.lean ====
section
/-!
DEFINITION. The statements about the XW49 for the provers. Each is a proposition about `step`, `exec` or the named operations;
the docstring says which rule of spec/ it formalises.
-/

open Sys2Proof Sys2Proof.Machine

/-! ### The step -/

/-- With a command waiting, the step is that command's effect on the state with the queue's rest. -/
def Obligations.StepRunsFrontCommand : Prop :=
  ∀ (c : Instr) (rest : List Instr) (s : State), s.pending = c :: rest → step s = exec c { s with pending := rest }

/-- With no command waiting (log entry 4): without power nothing happens; with power and TCLK a TCLK cycle passes (of a cold boot's
time first, R399), and the core whose turn it is, where it fetches, runs the instruction that its active slot's buffer holds at
the program counter (R77, R78), and faults where the words spell none (R79). TCLK runs on a reference or on holdover (R361).
In a TCLK cycle the GTC gains 2 × (1 + a·2^-32) ns at rate adjustment a, its fraction kept (R374), which every field's copy that
does not differ from it follows (R373); a field's cycle count gains 6, 5, 4.5, 4 or 3 CCLK cycles at OP0 to OP4 where its CCLK
runs, of two TCLK cycles the odd one of OP2 in the second, and stays where it does not (R364). -/
def Obligations.StepFetches : Prop :=
  (∀ (v u : State) (a : Int), u = tickTime v → a = v.xdt.rateAdj → -2147484 ≤ a → a ≤ 2147484 → v.clk.frac < 2 ^ 32 →
    v.clk.gtc + 8 < 2 ^ 64 → mrising v.fields = true →
    ((u.clk.gtc * 2 ^ 32 + u.clk.frac : Nat) : Int) = v.clk.gtc * 2 ^ 32 + v.clk.frac + 2 ^ 33 + 2 * a ∧
    u.clk.frac < 2 ^ 32 ∧
    (∀ f, f < 49 → (getField v f).gtcOff = 0 → (getField v f).gtcHeld = false → gtcOf u f = u.clk.gtc) ∧
    (∀ f, f < 49 → cclkRuns v f = false → (getField u f).cyc = (getField v f).cyc) ∧
    (∀ f n, f < 49 → cclkRuns v f = true → [12, 10, 9, 8, 6][(getField v f).op]? = some n →
      (getField u f).cyc = (getField v f).cyc + BitVec.ofNat 64 ((n + b2n (getField v f).half) / 2) ∧
      (getField u f).half = decide ((n + b2n (getField v f).half) % 2 = 1))) ∧
  ∀ (s b : State), s.pending = [] → b = bootTick s →
    (s.boot.st ≠ .booting → b = s) ∧
    (s.power.on = false → step s = .next s) ∧
    (b.clk.active = none → b.clk.holdover = false → step s = .next b) ∧
    (b.power.on = true → (b.clk.active ≠ none ∨ b.clk.holdover = true) →
      ∀ (t : XY) (u : State) (w x : Word32), t = XY.ofKey b.turn →
      u = tickTime { b with turn := (b.turn + 1) % 12544 } →
      w = (getTile u t).fetch (getTile u t).pc.toNat → x = (getTile u t).fetch ((getTile u t).pc.toNat + 1) →
      (canIssue u t = false → step s = .next u) ∧
      (canIssue u t = true → (getTile u t).pc.toNat + tileWords w ≤ 4096 →
        (∀ i, decodeTile t w x = some i → step s = exec i u) ∧
        (decodeTile t w x = none → step s = .next (faultCore u t evAddrFault))))

/-! ### Scalar instructions -/

/-- Every row of Table 3.4 with two sources completes: g[D] receives the row's function of g[SA] and g[SB] modulo 2^64, a
write to g0 is discarded, the program counter passes one word, and no other register, no vector register, no byte of memory,
no event bit and nothing outside the tile changes.
SEL, CLZ and POPC (Table 3.4): SEL chooses by g[D]; CLZ and POPC of a value are the number of leading zero bits and of one
bits among its 64. -/
def Obligations.ScalarRegisterResults : Prop :=
  (∀ row ∈ aluTable, ∀ (s : State) (t : XY) (d a b : Reg), s.ok = true → Issues s t 1 [d, a, b] →
    ∃ s' : State, exec (row.1 t d a b) s = .next s' ∧ OnlyTile t s s' ∧
      (∀ r, (getTile s' t).getG r =
        if r = d ∧ d ≠ 0 then row.2 ((getTile s t).getG a) ((getTile s t).getG b) else (getTile s t).getG r) ∧
      (getTile s' t).pc = (getTile s t).pc + 1 ∧ (getTile s' t).st = .run ∧ (getTile s' t).v = (getTile s t).v ∧
      (getTile s' t).mem = (getTile s t).mem ∧ (getTile s' t).event = (getTile s t).event) ∧
  (∀ (s : State) (t : XY) (d a b : Reg), s.ok = true → Issues s t 1 [d, a, b] →
    Leaves (.sel t d a b) s t
      (((getTile s t).setG d (if (getTile s t).getG d ≠ 0 then (getTile s t).getG a else (getTile s t).getG b)).retire 1) ∧
    (∃ n : Nat, Leaves (.clz t d a) s t (((getTile s t).setG d (BitVec.ofNat 64 n)).retire 1) ∧ n ≤ 64 ∧
      (∀ i, 64 - n ≤ i → ((getTile s t).getG a).getLsbD i = false) ∧
      (n < 64 → ((getTile s t).getG a).getLsbD (63 - n) = true)) ∧
    Leaves (.popc t d a) s t
      (((getTile s t).setG d (BitVec.ofNat 64
        ((List.range 64).filter (fun i => ((getTile s t).getG a).getLsbD i)).length)).retire 1))

/-- Every immediate instruction completes in both formats: one word with IMM12, two with X; a shift whose bits above the
count are not zero is undefined and faults (R79), and LIH joins X and the low half of g[SA]. -/
def Obligations.ScalarImmediateResults : Prop :=
  ∀ (s : State) (t : XY) (d a : Reg), s.ok = true →
    (Issues s t 1 [d, a] →
      (∀ row ∈ immTable, ∀ i : BitVec 12, Leaves (row.1 t d a (.short i)) s t
        (((getTile s t).setG d (row.2 ((getTile s t).getG a) (i.signExtend 64))).retire 1)) ∧
      (∀ row ∈ shiftTable,
        (∀ n < 64, Leaves (row.1 t d a (.short (BitVec.ofNat 12 n))) s t
          (((getTile s t).setG d (row.2 ((getTile s t).getG a) n)).retire 1)) ∧
        (∀ i : BitVec 12, 64 ≤ i.toNat → exec (row.1 t d a (.short i)) s = .next (faultCore s t evAddrFault)))) ∧
    (Issues s t 2 [d, a] →
      (∀ row ∈ immTable, ∀ x : Word32, Leaves (row.1 t d a (.long x)) s t
        (((getTile s t).setG d (row.2 ((getTile s t).getG a) (x.signExtend 64))).retire 2)) ∧
      (∀ row ∈ shiftTable,
        (∀ n < 64, Leaves (row.1 t d a (.long (BitVec.ofNat 32 n))) s t
          (((getTile s t).setG d (row.2 ((getTile s t).getG a) n)).retire 2)) ∧
        (∀ x : Word32, 64 ≤ x.toNat → exec (row.1 t d a (.long x)) s = .next (faultCore s t evAddrFault))) ∧
      (∀ x : Word32, Leaves (.lih t d a x) s t
        (((getTile s t).setG d ((x ++ (((getTile s t).getG a).extractLsb' 0 32) : BitVec 64))).retire 2)))

/-! ### Branches -/

/-- A conditional branch goes to (PC + OFF12) mod 4,096 where its condition holds and to the next word where it does not; JAL
and JALR write PC + 1 to g[D] and go to (PC + OFF12) mod 4,096 and to (g[SA] + OFF12) mod 4,096, with g[SA] read first
(R83). -/
def Obligations.BranchTargets : Prop :=
  ∀ (s : State) (t : XY) (a b d : Reg) (off : Off12), s.ok = true → Issues s t 1 [d, a, b] →
    (∀ row ∈ branchTable, ∃ s' : State, exec (row.1 t a b off) s = .next s' ∧ OnlyTile t s s' ∧
      (row.2 ((getTile s t).getG a) ((getTile s t).getG b) →
        ((getTile s' t).pc.toNat : Int) = (((getTile s t).pc.toNat : Int) + off.toInt) % 4096) ∧
      (¬ row.2 ((getTile s t).getG a) ((getTile s t).getG b) → (getTile s' t).pc = (getTile s t).pc + 1) ∧
      (getTile s' t).g = (getTile s t).g ∧ (getTile s' t).v = (getTile s t).v ∧ (getTile s' t).mem = (getTile s t).mem) ∧
    (∃ s' : State, exec (.jal t d off) s = .next s' ∧ OnlyTile t s s' ∧
      ((getTile s' t).pc.toNat : Int) = (((getTile s t).pc.toNat : Int) + off.toInt) % 4096 ∧
      (∀ r, (getTile s' t).getG r =
        if r = d ∧ d ≠ 0 then BitVec.ofNat 64 ((getTile s t).pc.toNat + 1) else (getTile s t).getG r)) ∧
    (∃ s' : State, exec (.jalr t d a off) s = .next s' ∧ OnlyTile t s s' ∧
      ((getTile s' t).pc.toNat : Int) = ((((getTile s t).getG a).toNat : Int) + off.toInt) % 4096 ∧
      (∀ r, (getTile s' t).getG r =
        if r = d ∧ d ≠ 0 then BitVec.ofNat 64 ((getTile s t).pc.toNat + 1) else (getTile s t).getG r))

/-! ### Issue and faults -/

/-- An instruction of a tile whose core cannot issue (stopped, halted, in FAULT, at the barrier, its clock stopped, a reset
holding it) changes nothing (log entry 13).
A fault sets its event bit and stops the core in FAULT with RUN left as it is; registers, memory and the program counter
stay, no other tile changes, and the core issues nothing further (R107, R108).
Of every instruction of a core: an undefined encoding faults, and so does a fetch beyond word 0xFFF, the second word of a 64-bit
instruction at 0xFFF included (R79, Table 3.21); one that names a scalar or a vector register awaiting a result holds at issue:
the core waits and nothing else changes (R47, Table 2.2). -/
def Obligations.IssueRules : Prop :=
  (∀ (i : Instr) (t : XY) (s : State), i.issuer = some t → canIssue s t = false → exec i s = .next s) ∧
  (∀ (s : State) (t : XY) (b : Nat), s.ok = true → t.inGrid = true → b < 14 →
    (getTile (faultCore s t b) t).st = .fault ∧ (getTile (faultCore s t b) t).event.getLsbD b = true ∧
    (getTile (faultCore s t b) t).run = (getTile s t).run ∧ (getTile (faultCore s t b) t).g = (getTile s t).g ∧
    (getTile (faultCore s t b) t).v = (getTile s t).v ∧ (getTile (faultCore s t b) t).mem = (getTile s t).mem ∧
    (getTile (faultCore s t b) t).pc = (getTile s t).pc ∧
    (∀ u : XY, u.inGrid = true → u ≠ t → getTile (faultCore s t b) u = getTile s u) ∧
    (∀ i : Instr, i.issuer = some t → exec i (faultCore s t b) = .next (faultCore s t b))) ∧
  (∀ (i : Instr) (t : XY), i.issuer = some t ↔ ∃ x, i.form = some (t, x)) ∧
  (∀ (i : Instr) (s : State) (t : XY) (n : Nat) (regs : List Reg) (good : Bool), i.form = some (t, n, regs, good) →
    canIssue s t = true →
    (4096 < (getTile s t).pc.toNat + n ∨ good = false → exec i s = .next (faultCore s t evAddrFault)) ∧
    ((getTile s t).pc.toNat + n ≤ 4096 → good = true →
      (∃ r ∈ regs, r ∈ (getTile s t).await) ∨ (∃ r ∈ i.vecs, r ∈ (getTile s t).awaitV) →
      exec i s = .next (setTile s t { getTile s t with st := .wait })))

/-! ### Local loads and stores -/

/-- A load completes: g[D] receives the bytes at g[SA] plus the sign-extended offset, little-endian, sign- or zero-extended;
nothing else but the program counter and the activity counters changes (R84, Table 3.7); a single-bit error is corrected and
counted (R213), and data whose parity is wrong at the core sets PARITY and taints the step (R214, R456).
A store completes: the bytes at the effective address are the low bytes of g[D], every other byte, every register and
everything outside the tile is unchanged (R84, Table 3.7). Part of a word in a single-bit error corrects and counts it; part of a
bad word leaves it bad and raises nothing; a whole word becomes correct (R482). Where the parity of a byte of the data is wrong at
the array, the word that holds it takes the poison pattern besides, PARITY is set, 0x4800:03 counts the word (R214), and the step
is tainted (R456).
Behind an open local fence all of them issue all the same: the register of a load awaits its value, and the access waits (R105).
That the core goes on with a free value after a parity error of a load is log entry 142. -/
def Obligations.LoadStoreResults : Prop :=
  (∀ row ∈ localTable, ∀ (s : State) (t : XY) (d a : Reg) (i : Imm) (x : Ext) (A : Nat), s.ok = true → PadFree (getTile s t) →
    A = ((getTile s t).getG a + row.off i x).toNat → PadAddr A row.size → Issues s t (row.words i) [d, a] →
    (Clean (getTile s t) A row.size →
      ∃ s' : State, exec (row.instr t d a i x .none) s = .next s' ∧ OnlyTile t s s' ∧
        (∀ r, (getTile s' t).getG r = if r = d ∧ d ≠ 0
          then BitVec.ofInt 64 (row.value (leNat ((getTile s t).mem.bytes A row.size))) else (getTile s t).getG r) ∧
        (getTile s' t).mem = (getTile s t).mem ∧ (getTile s' t).v = (getTile s t).v ∧
        (getTile s' t).pc = (getTile s t).pc + BitVec.ofNat 13 (row.words i)) ∧
    (mfind (getTile s t).ecc (A / 8) = some .single → mrising s.sites = true →
      ∃ s' : State, exec (row.instr t d a i x .none) s = .next s' ∧
        (∀ r, (getTile s' t).getG r = if r = d ∧ d ≠ 0
          then BitVec.ofInt 64 (row.value (leNat ((getTile s t).mem.bytes A row.size))) else (getTile s t).getG r) ∧
        (getTile s' t).event.getLsbD evEccCe = true ∧ (getTile s' t).mem = (getTile s t).mem ∧
        (getSite s' (siteOf s t)).ce = satAdd32 (getSite s (siteOf s t)).ce 1) ∧
    (Clean (getTile s t) A row.size → NoRequests s → mrising s.parts = true →
      ∃ s' : State, exec (row.instr t d a i x .parity) s = .next s' ∧
        (∀ r, r ≠ d → (getTile s' t).getG r = (getTile s t).getG r) ∧ (getTile s' t).mem = (getTile s t).mem ∧
        (getTile s' t).event.getLsbD evParity = true ∧ (getTile s' t).pc = (getTile s t).pc + BitVec.ofNat 13 (row.words i) ∧
        (∀ p, partOf s t = some p → (getPart s' p).taint = true))) ∧
  (∀ row ∈ storeTable, ∀ (s : State) (t : XY) (d : Sent) (a : Reg) (i : Imm) (A : Nat), s.ok = true → PadFree (getTile s t) →
    A = ((getTile s t).getG a + i.value).toNat → PadAddr A row.2 → Issues s t i.words [d.reg, a] →
    ((∀ k, d.bad = some k → row.2 ≤ k) → Clean (getTile s t) A row.2 ∨ mfind (getTile s t).ecc (A / 8) = some .bad ∨
      (row.2 = 8 ∧ (mfind (getTile s t).ecc (A / 8)).isSome = true) →
      ∃ s' : State, exec (row.1 t d a i) s = .next s' ∧ OnlyTile t s s' ∧ (getTile s' t).event = (getTile s t).event ∧
        (∀ x, (getTile s' t).mem.byte x = if A ≤ x ∧ x < A + row.2
          then ((getTile s t).getG d.reg).extractLsb' (8 * (x - A)) 8 else (getTile s t).mem.byte x) ∧
        mfind (getTile s' t).ecc (A / 8) = (if row.2 = 8 then none else mfind (getTile s t).ecc (A / 8)) ∧
        (getTile s' t).g = (getTile s t).g ∧ (getTile s' t).v = (getTile s t).v ∧
        (getTile s' t).pc = (getTile s t).pc + BitVec.ofNat 13 i.words) ∧
    ((∀ k, d.bad = some k → row.2 ≤ k) → row.2 < 8 → mfind (getTile s t).ecc (A / 8) = some .single → mrising s.sites = true →
      ∃ s' : State, exec (row.1 t d a i) s = .next s' ∧ mfind (getTile s' t).ecc (A / 8) = none ∧
        (getTile s' t).event.getLsbD evEccCe = true ∧
        (getSite s' (siteOf s t)).ce = satAdd32 (getSite s (siteOf s t)).ce 1 ∧
        (∀ x, (getTile s' t).mem.byte x = if A ≤ x ∧ x < A + row.2
          then ((getTile s t).getG d.reg).extractLsb' (8 * (x - A)) 8 else (getTile s t).mem.byte x) ∧
        (getTile s' t).g = (getTile s t).g ∧ (getTile s' t).v = (getTile s t).v) ∧
    (∀ k, d.bad = some k → k < row.2 → Clean (getTile s t) A row.2 → NoRequests s → mrising s.parts = true →
      ∃ s' : State, exec (row.1 t d a i) s = .next s' ∧
        (∀ u : XY, u.inGrid = true → u ≠ t → getTile s' u = getTile s u) ∧
        (∀ x, (getTile s' t).mem.byte x = if A ≤ x ∧ x < A + row.2
          then ((getTile s t).getG d.reg).extractLsb' (8 * (x - A)) 8 else (getTile s t).mem.byte x) ∧
        mfind (getTile s' t).ecc ((A + k) / 8) = some .bad ∧ (getTile s' t).event.getLsbD evParity = true ∧
        total s' 0x4800 3 = total s 0x4800 3 + 1 ∧ (getTile s' t).g = (getTile s t).g ∧ (getTile s' t).v = (getTile s t).v ∧
        (getTile s' t).pc = (getTile s t).pc + BitVec.ofNat 13 i.words ∧
        (∀ p, partOf s t = some p → (getPart s' p).taint = true))) ∧
  (∀ (s : State) (t : XY) (d a : Reg) (i : Imm) (x : Ext) (A : Nat) (up : Upset), s.ok = true →
    (getTile s t).zeroising = false → (getTile s t).fenced = true →
    (∀ row ∈ localTable, A = ((getTile s t).getG a + row.off i x).toNat → PadAddr A row.size → Issues s t (row.words i) [d, a] →
      Leaves (row.instr t d a i x up) s t
        ((((getTile s t).awaits d).later (.load d A row.size row.signed up)).retire (row.words i))) ∧
    (∀ row ∈ storeTable, ∀ e : Sent, A = ((getTile s t).getG a + i.value).toNat → PadAddr A row.2 →
      Issues s t i.words [e.reg, a] → Leaves (row.1 t e a i) s t
        (((getTile s t).later (.store A (natBytes row.2 ((getTile s t).getG e.reg).toNat) e.bad)).retire i.words)))

/-- LD and SD reach the tile's own control block; a store there changes only what the core may write (R67, R84).
What the read-only registers of a logical tile read: TC_ID its place (Table 2.6), TC_STATUS the issue cap, the valid slots, the
zeroise, the stopped clock, the mode, the core's state and the active slot (Table 2.7), TC_ISSUE the cap and what lowers it (Table
2.9), TC_GTC its field's copy, the counters of Table 2.13 their own values, TC_CE and TC_INDIGO those of its site (Table 2.15). -/
def Obligations.ControlBlockAccess : Prop :=
  (∀ (s : State) (t : XY) (d a : Reg) (e : Sent) (i : Imm) (off : Nat) (up : Upset), s.ok = true →
    ((getTile s t).getG a + i.value).toNat = 0x3F0000 + off → off % 8 = 0 → off < 0x10000 → Issues s t i.words [d, e.reg, a] →
    Leaves (.ld t d a i up) s t (((getTile s t).setG d (tcRead s t off)).retire i.words) ∧
    Leaves (.sd t e a i) s t ((tcCoreWrite (getTile s t) off ((getTile s t).getG e.reg)).retire i.words) ∧
    ((off < 0x40 ∨ 0x60 < off) → Leaves (.sd t e a i) s t ((getTile s t).retire i.words))) ∧
  (∀ (s : State) (t : XY) (T : Tile) (a : SiteId) (B : Block) (F : Field) (K : BitVec 5), s.ok = true → t.inGrid = true →
    T = getTile s t → a = siteOf s t → B = getBlock s a.block → F = getField s t.field → F.cap ≤ 16 →
    K = BitVec.ofNat 5 (min B.droop F.cap) →
    tcRead s t 0 = 0#8 ++ 1#8 ++ 0#16 ++ 1#1 ++ BitVec.ofNat 5 a.pc ++ BitVec.ofNat 4 t.row ++ BitVec.ofNat 6 t.field ++ 0#2 ++
      BitVec.ofNat 7 t.y ++ BitVec.ofNat 7 t.x ∧
    (∀ c ∈ ([(.stopped, 0), (.run, 1), (.wait, 2), (.barrier, 3), (.halt, 4), (.fault, 5)] : List (CoreState × BitVec 3)),
      T.st = c.1 → tcRead s t 8 = 0#43 ++ K ++ 0#4 ++ BitVec.ofBool (T.getSlot 3).valid ++ BitVec.ofBool (T.getSlot 2).valid ++
        BitVec.ofBool (T.getSlot 1).valid ++ BitVec.ofBool (T.getSlot 0).valid ++ BitVec.ofBool T.zeroising ++
        BitVec.ofBool B.stopped ++ BitVec.ofBool T.multi ++ c.2 ++ T.active) ∧
    tcRead s t 0x18 = 0#54 ++ BitVec.ofBool (decide (F.thermal < 16)) ++ BitVec.ofBool (decide (B.droop < 16)) ++ 0#3 ++ K ∧
    (gtcOf s t.field < 2 ^ 64 → (tcRead s t 0x68).toNat = gtcOf s t.field) ∧ tcRead s t 0x70 = T.traceWp.setWidth 64 ∧
    (∀ n < 8, tcRead s t (0x80 + 8 * n) = T.getAct n) ∧ (∀ n < 4, tcRead s t (0xC0 + 8 * n) = mget 0 T.slotCyc n) ∧
    tcRead s t 0xE0 = T.balStall ∧ tcRead s t 0xE8 = T.ovf.setWidth 64 ∧ tcRead s t 0xF0 = (getSite s a).ce.setWidth 64 ∧
    tcRead s t 0xF8 = (getSite s a).indigo.setWidth 64)

/-- Every other local address faults: misaligned, past the scratchpad, or of 2^22 or more (R84).
A load that reads an uncorrectable word faults at the access: ECC_UE is set, the core is in FAULT, and no register
changes (R213, Table 3.21).
A global access faults at issue on an address of 2^52 or more or misaligned for the size; a GDMA on its operand ranges
(R85); it does so though no TAG is free, a fault coming before a structural hold (log entry 24). -/
def Obligations.AccessFaults : Prop :=
  (∀ (s : State) (t : XY) (d a : Reg) (e : Sent) (i : Imm) (n A : Nat) (up : Upset), A = ((getTile s t).getG a + i.value).toNat →
    (A % n ≠ 0 ∨ (0x300000 < A + n ∧ A < 0x3F0000) ∨ 0x400000 ≤ A) → Issues s t i.words [d, e.reg, a] →
    (∀ row ∈ loadTable, row.2 = n → exec (row.1 t d a i up) s = .next (faultCore s t evAddrFault)) ∧
    (∀ row ∈ storeTable, row.2 = n → exec (row.1 t e a i) s = .next (faultCore s t evAddrFault))) ∧
  (∀ row ∈ loadTable, ∀ (s : State) (t : XY) (d a : Reg) (i : Imm) (A : Nat), s.ok = true → PadFree (getTile s t) →
    A = ((getTile s t).getG a + i.value).toNat → PadAddr A row.2 → mfind (getTile s t).ecc (A / 8) = some .bad →
    Issues s t i.words [d, a] →
    ∃ s' : State, exec (row.1 t d a i .none) s = .next s' ∧ (getTile s' t).st = .fault ∧
      (getTile s' t).event.getLsbD evEccUe = true ∧ (getTile s' t).g = (getTile s t).g ∧
      total s' 0x4800 2 = total s 0x4800 2 + 1) ∧
  (∀ (s : State) (t : XY) (d a b : Reg) (off : Off24) (u : Bool) (sz : Size2) (A loc D n : Nat),
    A = ((getTile s t).getG a + off.signExtend 64).toNat → loc = ((getTile s t).getG d).toNat → D = ((getTile s t).getG a).toNat →
    n = ((getTile s t).getG b).toNat → Issues s t 2 [d, a, b] →
    ((2 ^ 52 ≤ A ∨ A % 2 ^ sz.toNat ≠ 0) →
      exec (.gld t d a off u sz) s = .next (faultCore s t evAddrFault) ∧
      exec (.gst t d a off sz) s = .next (faultCore s t evAddrFault)) ∧
    ((loc % 64 ≠ 0 ∨ D % 64 ≠ 0 ∨ n % 64 ≠ 0 ∨ n < 64 ∨ 524288 < n ∨ 0x300000 < loc + n ∨ 2 ^ 52 < D + n) →
      exec (.gdmaGet t d a b) s = .next (faultCore s t evAddrFault) ∧
      exec (.gdmaPut t d a b) s = .next (faultCore s t evAddrFault)))

/-! ### Global access -/

/-- A GLD or GST of a reachable address issues as one transaction: the lowest free TAG is taken, the register of a GLD awaits
its result, and one request stands in the mesh at the tile with that address, length and TAG (R49, R85, R86, R255).
A GDMA whose operands are good, with enough free transactions and no fence open, issues as one transaction for each
segment of up to 8,192 bytes, in address order (R86). A PUT reads the bytes of a train as it leaves the tile: at its first hop,
its payload is what the scratchpad holds then; that moment is the model's reading (log entry 22). -/
def Obligations.GlobalAccessResults : Prop :=
  (∀ (s : State) (t : XY) (d a : Reg) (off : Off24) (u : Bool) (sz : Size2) (A g : Nat) (e : XY × Unit_), s.ok = true →
    A = ((getTile s t).getG a + off.signExtend 64).toNat → A < 2 ^ 52 → A % 2 ^ sz.toNat = 0 → endpoint s A = some e →
    routeOf s false t e.1 none ≠ .unreachable → s.mesh.flushing = [] → (getTile s t).fencedG = false →
    freeTag (getTile s t) = some g → (getTile s t).tx.length < 64 → Issues s t 2 [d, a] →
    (∃ (s' : State) (k : Pkt), exec (.gld t d a off u sz) s = .next s' ∧
      mfind (getTile s' t).tx g = some ⟨.gld d u sz, A, 2 ^ sz.toNat, [0], false⟩ ∧ (d ≠ 0 → d ∈ (getTile s' t).await) ∧
      mfind s'.mesh.pkts s.mesh.nextId = some k ∧ k.type = .readReq ∧ k.addr = A ∧ k.len = 2 ^ sz.toNat ∧ k.tag = g ∧
      k.src = t ∧ k.dst = e.1 ∧ k.at_ = t) ∧
    (∃ (s' : State) (k : Pkt), exec (.gst t d a off sz) s = .next s' ∧
      mfind (getTile s' t).tx g = some ⟨.gst (natBytes (2 ^ sz.toNat) ((getTile s t).getG d).toNat), A, 2 ^ sz.toNat, [0], false⟩ ∧
      mfind s'.mesh.pkts s.mesh.nextId = some k ∧ k.type = .write ∧ k.addr = A ∧
      k.payload = natBytes (2 ^ sz.toNat) ((getTile s t).getG d).toNat ∧ k.tag = g ∧ k.src = t ∧ k.dst = e.1)) ∧
  (∀ (s : State) (t : XY) (d a b : Reg) (loc D n : Nat), loc = ((getTile s t).getG d).toNat →
    D = ((getTile s t).getG a).toNat → n = ((getTile s t).getG b).toNat → gdmaOk loc D n = true →
    (getTile s t).tx.length + (n + 8191) / 8192 ≤ 64 → Issues s t 2 [d, a, b] →
    (segments n).length = (n + 8191) / 8192 ∧ (∀ g ∈ segments n, g.1 % 8192 = 0 ∧ g.2 ≤ 8192 ∧ g.1 + g.2 ≤ n) ∧
    exec (.gdmaGet t d a b) s = .next (forAll (fun s (g : Nat × Nat) =>
      startTx s t (.get (loc + g.1)) (D + g.1) g.2) (segments n) (setTile s t ((getTile s t).retire 2))) ∧
    exec (.gdmaPut t d a b) s = .next (forAll (fun s (g : Nat × Nat) =>
      startTx s t (.put (loc + g.1)) (D + g.1) g.2) (segments n) (setTile s t ((getTile s t).retire 2)))) ∧
  (∀ (s : State) (t : XY) (k : Pkt) (loc : Nat), s.ok = true → t.inGrid = true →
    (∀ w ∈ wordsOf loc k.len, mfind (getTile s t).ecc w = none) →
    (readPut s t k loc).2.payload = (getTile s t).mem.bytes loc k.len ∧ (readPut s t k loc).2.poison = false ∧
    (readPut s t k loc).2.loc = none ∧
    getTile (readPut s t k loc).1 t = (getTile s t).addAct 3 (ceilDiv k.len 64))

/-! ### Vector instructions -/

/-- On integer lanes every row of Table 3.11 gives each lane of v[D] its function of the lanes of v[SA], v[SB] and v[D];
every other vector register, every scalar register and memory stay (R89).
The same on floating-point lanes (R89, R126). -/
def Obligations.VectorLaneResults : Prop :=
  (∀ row ∈ intLaneTable, ∀ (s : State) (t : XY) (d a b : Reg) (ty : Ty), s.ok = true → 3 ≤ ty.toNat → ty.toNat ≤ 6 →
    (getTile s t).awaitV = [] → Issues s t 1 [] →
    ∃ s' : State, exec (row.1 t d a b ty) s = .next s' ∧ OnlyTile t s s' ∧
      (∀ k, k < 512 / tyWidth ty → lane (tyWidth ty) k ((getTile s' t).getV d) =
        row.2 (tyWidth ty) (lane (tyWidth ty) k ((getTile s t).getV a)) (lane (tyWidth ty) k ((getTile s t).getV b))
          (lane (tyWidth ty) k ((getTile s t).getV d))) ∧
      (∀ r, r ≠ d → (getTile s' t).getV r = (getTile s t).getV r) ∧ (getTile s' t).g = (getTile s t).g ∧
      (getTile s' t).mem = (getTile s t).mem ∧ (getTile s' t).pc = (getTile s t).pc + 1) ∧
  (∀ row ∈ floatLaneTable, ∀ (s : State) (t : XY) (d a b : Reg) (ty : Ty) (k : Wide), s.ok = true → floatTy ty = some k →
    (getTile s t).awaitV = [] → Issues s t 1 [] →
    ∃ s' : State, exec (row.1 t d a b ty) s = .next s' ∧ OnlyTile t s s' ∧
      (∀ j, j < 512 / k.width → lane k.width j ((getTile s' t).getV d) =
        row.2 k (lane k.width j ((getTile s t).getV a)) (lane k.width j ((getTile s t).getV b))
          (lane k.width j ((getTile s t).getV d))) ∧
      (∀ r, r ≠ d → (getTile s' t).getV r = (getTile s t).getV r) ∧ (getTile s' t).g = (getTile s t).g ∧
      (getTile s' t).mem = (getTile s t).mem ∧ (getTile s' t).pc = (getTile s t).pc + 1)

/-- VAND, VOR and VXOR act on all 512 bits under every TY but 0b111; VBCAST fills every lane with the low bits of g[SA];
VEXT writes one lane, zero-extended (Table 3.11, R89).
An undefined TY, an integer TY of VFMA, a floating-point TY of a shift, a reserved FMT of VQZ, and an odd register of a
pair fault (R79, R88 to R90). -/
def Obligations.BitwiseAndUndefinedEncodings : Prop :=
  (∀ (s : State) (t : XY) (d a b : Reg) (ty : Ty), s.ok = true → ty.toNat ≠ 7 → (getTile s t).awaitV = [] →
    Issues s t 1 [d, a, b] →
    (∀ row ∈ bitTable, Leaves (row.1 t d a b ty) s t
      ((((getTile s t).setV d (row.2 ((getTile s t).getV a) ((getTile s t).getV b))).addAct 1 1).retire 1)) ∧
    (∃ V : Vec, (∀ k, k < 512 / tyWidth ty → lane (tyWidth ty) k V = ((getTile s t).getG a).toNat % 2 ^ tyWidth ty) ∧
      Leaves (.vbcast t d a ty) s t ((((getTile s t).setV d V).addAct 1 1).retire 1)) ∧
    Leaves (.vext t d a b ty) s t ((((getTile s t).setG d (BitVec.ofNat 64 (lane (tyWidth ty)
      (((getTile s t).getG b).toNat % (512 / tyWidth ty)) ((getTile s t).getV a)))).addAct 1 1).retire 1)) ∧
  (∀ (s : State) (t : XY) (d a b gs : Reg) (ty : Ty) (f : FmtCode) (rnd : Bool), Issues s t 1 [] → Issues s t 2 [b, gs] →
    (ty.toNat = 7 → ∀ row ∈ bitTable, exec (row.1 t d a b ty) s = .next (faultCore s t evAddrFault)) ∧
    (3 ≤ ty.toNat → exec (.vfma t d a b ty) s = .next (faultCore s t evAddrFault)) ∧
    (ty.toNat ≤ 2 → exec (.vsll t d a b ty) s = .next (faultCore s t evAddrFault) ∧
      exec (.vsrl t d a b ty) s = .next (faultCore s t evAddrFault) ∧
      exec (.vsra t d a b ty) s = .next (faultCore s t evAddrFault)) ∧
    ((f.toNat < 3 ∨ 0x0C < f.toNat) → exec (.vqz t d a b f rnd ty gs) s = .next (faultCore s t evAddrFault) ∧
      exec (.vdq t d a b f ty gs) s = .next (faultCore s t evAddrFault)) ∧
    (a.toNat % 2 = 1 → exec (.vcvt t d a rnd 2 0) s = .next (faultCore s t evAddrFault) ∧
      exec (.vupdc t d a b) s = .next (faultCore s t evAddrFault)))

/-- VLD and VST move 64 bytes between v[D] and the scratchpad (R90). A byte of VST's data whose parity is wrong at the array poisons
its word, sets PARITY, counts in 0x4800:03 and taints the step; data of a VLD whose parity is wrong at its consumer sets PARITY and
taints the step (R214, R456); that the core goes on then with a free value is log entry 142.
An instruction that names a vector register awaiting a VLD holds at issue (R47). -/
def Obligations.VectorMemoryResults : Prop :=
  (∀ (s : State) (t : XY) (d a b : Reg) (ty : Ty), canIssue s t = true → (getTile s t).pc.toNat + 1 ≤ 4096 → ty.toNat ≠ 7 →
    (d ∈ (getTile s t).awaitV ∨ a ∈ (getTile s t).awaitV ∨ b ∈ (getTile s t).awaitV) → ∀ row ∈ bitTable,
    exec (row.1 t d a b ty) s = .next (setTile s t { getTile s t with st := .wait })) ∧
  ∀ (s : State) (t : XY) (d a : Reg) (e : Sent) (x : Ext) (A : Nat), s.ok = true → PadFree (getTile s t) →
    A = ((getTile s t).getG a + x.signExtend 64).toNat → PadAddr A 64 → Clean (getTile s t) A 64 → (getTile s t).awaitV = [] →
    Issues s t 2 [a] →
    (∃ s' : State, exec (.vld t d a x .none) s = .next s' ∧ OnlyTile t s s' ∧
      (getTile s' t).getV d = BitVec.ofNat 512 (leNat ((getTile s t).mem.bytes A 64)) ∧
      (∀ r, r ≠ d → (getTile s' t).getV r = (getTile s t).getV r) ∧ (getTile s' t).g = (getTile s t).g ∧
      (getTile s' t).mem = (getTile s t).mem) ∧
    (NoRequests s → mrising s.parts = true →
      ∃ s' : State, exec (.vld t d a x .parity) s = .next s' ∧ (getTile s' t).event.getLsbD evParity = true ∧
        (∀ r, r ≠ d → (getTile s' t).getV r = (getTile s t).getV r) ∧ (getTile s' t).g = (getTile s t).g ∧
        (getTile s' t).mem = (getTile s t).mem ∧ (∀ p, partOf s t = some p → (getPart s' p).taint = true)) ∧
    ((∀ k, e.bad = some k → 64 ≤ k) →
      ∃ s' : State, exec (.vst t e a x) s = .next s' ∧ OnlyTile t s s' ∧ (getTile s' t).event = (getTile s t).event ∧
        (∀ y, (getTile s' t).mem.byte y = if A ≤ y ∧ y < A + 64
          then ((getTile s t).getV e.reg).extractLsb' (8 * (y - A)) 8 else (getTile s t).mem.byte y) ∧
        (getTile s' t).g = (getTile s t).g ∧ (getTile s' t).v = (getTile s t).v) ∧
    (∀ k, e.bad = some k → k < 64 → NoRequests s → mrising s.parts = true →
      ∃ s' : State, exec (.vst t e a x) s = .next s' ∧ (∀ u : XY, u.inGrid = true → u ≠ t → getTile s' u = getTile s u) ∧
        (∀ y, (getTile s' t).mem.byte y = if A ≤ y ∧ y < A + 64
          then ((getTile s t).getV e.reg).extractLsb' (8 * (y - A)) 8 else (getTile s t).mem.byte y) ∧
        mfind (getTile s' t).ecc ((A + k) / 8) = some .bad ∧ (getTile s' t).event.getLsbD evParity = true ∧
        total s' 0x4800 3 = total s 0x4800 3 + 1 ∧ (∀ p, partOf s t = some p → (getPart s' p).taint = true) ∧
        (getTile s' t).g = (getTile s t).g ∧ (getTile s' t).v = (getTile s t).v)

/-- The instructions on 32 elements: VQZ writes packed codes to v[D] and block scales to g[GS]; VDQ and VCVT write decoded values
rounded once; VAMAX keeps the largest magnitude; VUPDC updates weights and carries (R91, R92, R125, R126, R158, R165).
With RND = 1 VQZ and VCVT round stochastically (R123): they draw 16 words of the tile's generator, two 16-bit draws in each, the
low half first, and s0 to s3 are then those of 16 steps further (R59, R60); with RND = 0 the generator stays. -/
def Obligations.ConversionResults : Prop :=
  ∀ (s : State) (t : XY) (T U : Tile) (d a b gs : Reg) (f : FmtCode) (F : Fmt) (rnd : Bool) (sty dty : Ty) (j k : Wide)
    (draws : List Nat) (Q : List (Nat × List Nat)), s.ok = true → T = getTile s t →
    blockedFmt f = some F → floatTy sty = some j → floatTy dty = some k → pairOk j a = true → pairOk k d = true →
    T.awaitV = [] → (rnd = true → T.drawing = false) → Issues s t 2 [b, gs, d] →
    draws = (if rnd then genDraws T.gen 32 else []) → U = (if rnd then T.withGen (genAfter 16 T.gen) else T) →
    Q = quantAll F (fp32Of (T.getG b)) rnd draws ((T.elems j a).map j.dec) →
    Leaves (.vqz t d a b f rnd sty gs) s t
      ((((U.setV d (BitVec.ofNat 512 (packCodes F.width (Q.flatMap (·.2))))).setG gs
        (BitVec.ofNat 64 (packCodes 8 (Q.map (·.1))))).addAct 1 1).retire 2) ∧
    Leaves (.vdq t d a b f dty gs) s t (((T.setElems k d ((dequant F (fp32Of (T.getG b))
      (unpackCodes F.width 32 (T.getV a).toNat) (unpackCodes 8 8 (T.getG gs).toNat)).map (k.enc .even true))).addAct 1 1).retire 2) ∧
    Leaves (.vcvt t d a rnd sty dty) s t (((U.setElems k d (List.zipWith
      (fun i c => k.enc (if rnd then .stoch (draws.getD i 0) else .even) true (j.dec c)) (List.range 32) (T.elems j a))).addAct
        1 1).retire 2) ∧
    Leaves (.vamax t d a sty) s t (((T.setG d (vamaxCode j (T.elems j a) (fp32Of (T.getG d)))).addAct 1 1).retire 2) ∧
    (d ≠ b → isEven a = true → Leaves (.vupdc t d a b) s t ((((T.setV d (ofLanes 16
      ((List.zipWith (fun p x => updc p.1 p.2 x) ((lanesOf 16 (T.getV d)).zip
        (unpackCodes 8 32 (T.getV b).toNat)) (T.elems .fp32 a)).map (·.1)))).setV b
      (BitVec.ofNat 512 (packCodes 8 ((List.zipWith (fun p x => updc p.1 p.2 x) ((lanesOf 16 (T.getV d)).zip
        (unpackCodes 8 32 (T.getV b).toNat)) (T.elems .fp32 a)).map (·.2))))).addAct 1 1).retire 2))

/-! ### The matrix engine -/

/-- The instructions of Table 3.13 issue with a free queue entry: MCFG of a legal pairing queues it with status 0x00, any other
writes 0x05 and queues the configuration already in force (R94); MLDB queues the staging of B (R132); MSWAP queues the exchange
(R93); an MMA whose operands R95 allows is queued against the fill bank, held behind an open local fence (R105), and one that R95
does not allow faults; in wide mode (R151) the statement says nothing of an MMA. The range counts the tile word of the X formats
(log entry 33), and the bank, the formats and the staged operand are those in force after the queued commands (matView, log entry
107). -/
def Obligations.MatrixIssueResults : Prop :=
  ∀ (s : State) (t : XY) (T : Tile) (v : MatView) (d a b : Reg), s.ok = true → T = getTile s t → v = matView s T →
    Issues s t 2 [d, a, b] → matFull T.mat = false →
    (∀ (fa fb : FmtCode) (g : Byte),
      ((fa = fb ∧ fa.toNat ≤ 0x0C) ∨ (fa ∈ [3, 4] ∧ fb ∈ [3, 4]) ∨ (fa ∈ [5, 6] ∧ fb ∈ [5, 6]) →
        Leaves (.mcfg t d fa fb g) s t (((T.setG d 0).pushMat (.cfg fa fb g)).retire 2)) ∧
      (¬ ((fa = fb ∧ fa.toNat ≤ 0x0C) ∨ (fa ∈ [3, 4] ∧ fb ∈ [3, 4]) ∨ (fa ∈ [5, 6] ∧ fb ∈ [5, 6])) →
        Leaves (.mcfg t d fa fb g) s t (((T.setG d 5).pushMat (.cfg v.fmtA v.fmtB v.tag)).retire 2))) ∧
    (∀ e : Bool, Leaves (.mldb t ⟨a, e⟩ b false) s t ((T.pushMat (.stage (T.getG a).toNat ((T.getG b).setWidth 32))).retire 2)) ∧
    Leaves (.mswap t) s t ((T.pushMat .swap).retire 2) ∧
    (∀ (k : Half) (z : Bool) (bOff : Nat) (x : Word32) (A : Nat), T.activeSlot.wide = false → A = (T.getG a).toNat →
      v.staged = some (bOff, x) → v.pass v.fill ≠ some true →
      ((0 < k.toNat ∧ k.toNat ≤ 32768 ∧ k.toNat % (fmtD v.fmtA).block = 0 ∧ A % 256 = 0 ∧ bOff % 256 = 0 ∧
          A + operandBytes (fmtD v.fmtA) k.toNat ≤ 0x300000 ∧ bOff + operandBytes (fmtD v.fmtB) k.toNat ≤ 0x300000) →
        T.zeroising = false → (∀ e ∈ T.mat.accLoad, e.1 ≠ v.fill) →
        Leaves (.mma t a b k z) s t
          (((T.laterIf .mma).pushMat (.mma v.fill A ((T.getG b).setWidth 32) k.toNat z T.mem)).retire 2)) ∧
      (¬ (0 < k.toNat ∧ k.toNat ≤ 32768 ∧ k.toNat % (fmtD v.fmtA).block = 0 ∧ A % 256 = 0 ∧ bOff % 256 = 0 ∧
          A + operandBytes (fmtD v.fmtA) k.toNat ≤ 0x300000 ∧ bOff + operandBytes (fmtD v.fmtB) k.toNat ≤ 0x300000) →
        exec (.mma t a b k z) s = .next (faultCore s t evAddrFault))) ∧
    (v.staged = none → ∀ k z, exec (.mma t a b k z) s = .next (faultCore s t evAddrFault))

/-- MDRAIN converts the drain bank as it stands and leaves its bytes, for g[SA] on, and its status to come: 0x00 for a bank without
an open pass; with one of exact passes it ends the pass, which counts in 0x7880:01, and leaves 0x00, or TAINTED where the sub-block
differs from the shadow (R145, R146). With RND = 1 and a format other than XA32 it draws one 16-bit value for each of the 4,096 outputs
from the tile's generator, which is then 2,048 steps further (R59, R60, R124). MLDB with ACC = 1 begins the load of the drain bank.
Either is held behind an open local fence (R105). Both fault on a range that is not 256-byte aligned in the scratchpad
(R95, R96, R140, R141).
A pass that ends with no MDRAIN: a sub-block that equals the shadow counts in 0x7880:01 and changes nothing else but that the
pass is closed; one that differs sets INDIGO, counts in 0x7880:03 and in TC_INDIGO, and taints the step (R145, R146).
That the conversion takes the bank at the issue is log entry 35, the name of the drain bank through matView log entry 107, and the
fault before a full queue log entry 24. -/
def Obligations.MatrixDrainResults : Prop :=
  (∀ (s : State) (t : XY) (T U : Tile) (f : Fmt) (fmt : FmtCode) (rnd : Bool) (d : Sent) (a b : Reg) (bank draw : Bool) (A : Nat)
    (l : List Byte), s.ok = true → T = getTile s t → bank = !(matView s T).fill → A = (T.getG a).toNat → fmtOf fmt = some f →
    Issues s t 2 [d.reg, a, b] → draw = (rnd && decide (f ≠ .xa32)) → U = (if draw then T.withGen (genAfter 2048 T.gen) else T) →
    l = drainBytes f ((T.getG b).setWidth 32) draw (if draw then genDraws T.gen 4096 else [])
      ((List.range 4096).map (fun n => (mget 0 (T.mat.bank bank) n).toNat)) →
    (A % 256 = 0 → A + drainSize f ≤ 0x300000 → matFull T.mat = false → T.zeroising = false → bankAwaits T.mat bank = false →
      (draw = true → T.drawing = false) →
      (T.mat.pass bank = none →
        Leaves (.mdrain t d a b fmt rnd) s t ({ ((U.laterIf .drain).awaits d.reg) with mat := { T.mat with
          drain := T.mat.drain ++ [Drain.mk d 0 draw false A l] } }.retire 2)) ∧
      (∀ p, T.mat.pass bank = some p → p.wide = false →
        ∃ s' : State, exec (.mdrain t d a b fmt rnd) s = .next s' ∧
          getTile s' t = { ((U.laterIf .drain).awaits d.reg) with mat := { T.mat.setPass bank none with
            drain := T.mat.drain ++ [Drain.mk d (if subCodes (T.mat.bank bank) p.sub = p.shadow.map BitVec.toNat then 0 else 0x0A) draw true
              A l] } }.retire 2 ∧
          (∀ u : XY, u.inGrid = true → u ≠ t → getTile s' u = getTile s u) ∧ total s' 0x7880 1 = total s 0x7880 1 + 1)) ∧
    ((A % 256 ≠ 0 ∨ 0x300000 < A + drainSize f) →
      exec (.mdrain t d a b fmt rnd) s = .next (faultCore s t evAddrFault)) ∧
    (A % 256 = 0 → A + 16384 ≤ 0x300000 → matFull T.mat = false → T.zeroising = false → bankAwaits T.mat bank = false →
      T.mat.pass bank = none →
      ∀ e : Bool, Leaves (.mldb t ⟨a, e⟩ b true) s t
        ({ T.laterIf .acc with mat := { T.mat with accLoad := T.mat.accLoad ++ [(bank, A, e)] } }.retire 2)) ∧
    ((A % 256 ≠ 0 ∨ 0x300000 < A + 16384) → ∀ e : Bool, exec (.mldb t ⟨a, e⟩ b true) s = .next (faultCore s t evAddrFault))) ∧
  (∀ (s : State) (t : XY) (b : Bool) (p : Pass) (m : Matrix), s.ok = true → t.inGrid = true → m = (getTile s t).mat →
    m.pass b = some p → p.wide = false →
    (subCodes (m.bank b) p.sub = p.shadow.map (·.toNat) →
      endPass s t b = addTotal (setTile s t { getTile s t with mat := m.setPass b none }) 0x7880 1 1) ∧
    (subCodes (m.bank b) p.sub ≠ p.shadow.map (·.toNat) → (getSite s (siteOf s t)).lastMismatch = none → mrising s.sites = true →
      NoRequests s → mrising s.parts = true →
      (getTile (endPass s t b) t).event.getLsbD evIndigo = true ∧ (getTile (endPass s t b) t).mat = m.setPass b none ∧
      (getSite (endPass s t b) (siteOf s t)).indigo = satAdd32 (getSite s (siteOf s t)).indigo 1 ∧
      total (endPass s t b) 0x7880 3 = total s 0x7880 3 + 1 ∧
      (∀ q, partOf s t = some q → (getPart (endPass s t b) q).taint = true)))

/-- The engine at work: an MCFG, MLDB or MSWAP at the head of the queue takes effect and leaves it; an MMA starts only in a
cycle that the issue gate allows (R63), on its bank, with the operands and formats then in force; an MDRAIN's bytes are written and
its status register too, and where the status is TAINTED the mismatch acts: INDIGO is set, 0x7880:03 counts it and the step is
tainted (R146); a byte whose parity is wrong at the array poisons its word, sets PARITY and taints the step (R214, R456); a load of a
bank fills it from the scratchpad (R46, R93 to R96, R132, R141), and one whose data arrives with wrong parity sets PARITY and taints. One that stands behind an
open local fence waits (R105), and while the scratchpad is zeroised no access goes on (R74, R208).
With Z = 1 the bank is zero when the MMA starts and a new pass is open: its tag is the one in force and its shadow is zero
(R96, R142).
MMA_COMPLETE with no error met: every one of the 4,096 outputs of the MMA's bank becomes the old value accumulated over
the blocks of its row of A and its row of B; the other bank, the registers and the scratchpad stay, and TC_OVF counts the
saturations (R136, R138).
That all bytes of a drain, converted at its issue, are written with MDRAIN_COMPLETE is log entry 35. -/
def Obligations.MatrixEngineResults : Prop :=
  (∀ (s : State) (t : XY) (T : Tile) (m : Matrix), s.ok = true → T = getTile s t → m = T.mat → unitRuns s t = true →
    (∀ a b g r, m.queue = .cfg a b g :: r →
      Leaves (.matrixQueueHead t) s t { T with mat := { m with fmtA := a, fmtB := b, tag := g, queue := r } }) ∧
    (∀ o x r, m.queue = .stage o x :: r →
      Leaves (.matrixQueueHead t) s t { T with mat := { m with staged := some (o, x), queue := r } }) ∧
    (∀ r, m.queue = .swap :: r → Leaves (.matrixQueueHead t) s t { T with mat := { m with fill := !m.fill, queue := r } }) ∧
    (∀ b ao x k snap r cyc, m.queue = .mma b ao x k false snap :: r → m.running = none → (m.pass b).isSome = true →
      T.behind .mma < (m.queue.filter MatCmd.isMma).length → cyc = (getField s t.field).cyc.toNat →
      ((cyc % 16 * issueCap s t) % 16 < issueCap s t →
        Leaves (.mmaStart t) s t { T with mat := { m with
          queue := r
          running := some ⟨b, ao, x, (m.staged.getD (0, 0)).1, (m.staged.getD (0, 0)).2, k, m.fmtA, m.fmtB, snap⟩ } }) ∧
      (issueCap s t ≤ (cyc % 16 * issueCap s t) % 16 → exec (.mmaStart t) s = .next s)) ∧
    (∀ x r, m.drain = x :: r → T.zeroising = false → T.behind .drain ≤ r.length →
      (x.st = 0x0A → (getSite s (siteOf s t)).lastMismatch = none) → NoRequests s → mrising s.parts = true →
      ∃ s' : State, exec (.mdrainComplete t) s = .next s' ∧ (getTile s' t).mem = T.mem.store x.off x.bytes ∧
        (∀ y, (getTile s' t).getG y = if y = x.d.reg ∧ y ≠ 0 then x.st.setWidth 64 else T.getG y) ∧
        (getTile s' t).await = T.await.erase x.d.reg ∧ (getTile s' t).v = T.v ∧
        (getTile s' t).mat = { m with drain := r } ∧ (getTile s' t).pc = T.pc ∧
        (∀ u : XY, u.inGrid = true → u ≠ t → getTile s' u = getTile s u) ∧
        (∀ k, x.d.bad = some k → k < x.bytes.length → mfind (getTile s' t).ecc ((x.off + k) / 8) = some .bad ∧
          (getTile s' t).event.getLsbD evParity = true ∧ (∀ p, partOf s t = some p → (getPart s' p).taint = true)) ∧
        (x.st = 0x0A → (getTile s' t).event.getLsbD evIndigo = true ∧ total s' 0x7880 3 = total s 0x7880 3 + 1 ∧
          (∀ p, partOf s t = some p → (getPart s' p).taint = true)) ∧
        (T.ecc = [] → x.d.bad = none → x.st ≠ 0x0A → OnlyTile t s s')) ∧
    (∀ x r, m.drain = x :: r → T.zeroising = true → exec (.mdrainComplete t) s = .next s) ∧
    (∀ b off e r, m.accLoad = (b, off, e) :: r → T.ecc = [] → T.mem.wf = true → T.zeroising = false → T.behind .acc ≤ r.length →
      (e = true → NoRequests s ∧ mrising s.parts = true) →
      ∃ s' : State, exec (.mldbAccComplete t) s = .next s' ∧ (getTile s' t).mat.accLoad = r ∧
        (e = false →
          ∀ n < 4096, mget 0 ((getTile s' t).mat.bank b) n = BitVec.ofNat 32 (leNat (T.mem.bytes (off + 4 * n) 4))) ∧
        (e = true → (getTile s' t).event.getLsbD evParity = true ∧ (∀ p, partOf s t = some p → (getPart s' p).taint = true)) ∧
        (getTile s' t).mat.bank (!b) = m.bank (!b) ∧ (getTile s' t).g = T.g ∧ (getTile s' t).mem = T.mem)) ∧
  (∀ (s : State) (t : XY) (T : Tile) (b : Bool) (ao k : Nat) (x : Word32) (snap : Memory) (r : List MatCmd), s.ok = true →
    T = getTile s t → unitRuns s t = true → T.mat.queue = .mma b ao x k true snap :: r → T.mat.running = none →
    T.behind .mma < (T.mat.queue.filter MatCmd.isMma).length → T.mat.pass b = none → T.mat.lastSub < 64 →
    ((getField s t.field).cyc.toNat % 16 * issueCap s t) % 16 < issueCap s t →
    ∃ s' p, exec (.mmaStart t) s = .next s' ∧ OnlyTile t s s' ∧ (getTile s' t).mat.bank b = [] ∧
      (getTile s' t).mat.bank (!b) = T.mat.bank (!b) ∧ (getTile s' t).mat.pass b = some p ∧ p.tag = T.mat.tag ∧
      p.shadow = List.replicate 64 0 ∧ p.sub < 64 ∧ (getTile s' t).mat.queue = r ∧
      ((getTile s' t).mat.running.map (·.bank)) = some b ∧ (T.activeSlot.wide = false → p.wide = false)) ∧
  (∀ (s : State) (t : XY) (T : Tile) (r : MmaRun), s.ok = true → T = getTile s t → padRuns s t = true →
    T.mat.running = some r → r.snap = T.mem → T.ecc = [] →
    ∃ s' : State, exec (.mmaComplete t [] []) s = .next s' ∧ (getTile s' t).mat.running = none ∧
      (∀ i < 64, ∀ j < 64, mget 0 ((getTile s' t).mat.bank r.bank) (64 * i + j) =
        BitVec.ofNat 32 (accumulate (r.term T.mem.byte [] i j) (r.k / (fmtD r.fmtA).block) 0
          ((mget 0 (T.mat.bank r.bank) (64 * i + j)).toNat, 0)).1) ∧
      (getTile s' t).mat.bank (!r.bank) = T.mat.bank (!r.bank) ∧ (getTile s' t).g = T.g ∧ (getTile s' t).v = T.v ∧
      (getTile s' t).mem = T.mem ∧ (getTile s' t).pc = T.pc ∧
      (getTile s' t).ovf = satAdd32 T.ovf (((List.range 4096).map (fun n =>
        (accumulate (r.term T.mem.byte [] (n / 64) (n % 64)) (r.k / (fmtD r.fmtA).block) 0
          ((mget 0 (T.mat.bank r.bank) n).toNat, 0)).2)).foldl (· + ·) 0))

/-! ### The queue unit -/

/-- QWAIT, QPEEK and QPOP of a queue that the active slot owns: with a record at the head, past any pad, its local offset
BASE + (RP mod 2^LOG2), or its release with status 0x00, RP past it and its acknowledgement; with none, a hold, all ones, and 0x07. A
queue of another slot faults (R99, R261). Each header that the queue unit reads, of the pad and of the record, is one narrow access in
TC_ACT3 (Table 2.13). A header whose parity is wrong at the queue unit sets PARITY and taints the step (R214, R456); that the unit goes
on with it is log entry 142. That the header is read at once, also behind an open local fence, is log entry 144. -/
def Obligations.ReceiveQueueResults : Prop :=
  ∀ (s : State) (t : XY) (T V : Tile) (d : Reg) (q : QNum) (O Q : Queue), s.ok = true → T = getTile s t → O = T.getQ q.toNat →
    Q = T.skipPad O → mrising T.qu.qs = true → Issues s t 2 [d] →
    V = (if O.used = 0 then T else if Q = O then T.addAct 3 1 else if Q.used = 0 then (T.addAct 3 1).setQ q.toNat Q
      else ((T.addAct 3 1).setQ q.toNat Q).addAct 3 1) →
    ((T.multi = true ∧ T.activeSlot.qmask.getLsbD q.toNat = false) → ∀ e : Bool,
      exec (.qwait t ⟨d, e⟩ q) s = .next (faultCore s t evAddrFault) ∧
      exec (.qpeek t ⟨d, e⟩ q) s = .next (faultCore s t evAddrFault) ∧
      exec (.qpop t ⟨d, e⟩ q) s = .next (faultCore s t evAddrFault)) ∧
    ((T.multi = false ∨ T.activeSlot.qmask.getLsbD q.toNat = true) → T.zeroising = false →
      (∀ w ∈ wordsOf O.headOffset 16, mfind T.ecc w = none) → (∀ w ∈ wordsOf Q.headOffset 16, mfind T.ecc w = none) →
      (O.used ≠ 0 → NoRequests s → mrising s.parts = true →
        ∃ s' : State, exec (.qpeek t ⟨d, true⟩ q) s = .next s' ∧ (getTile s' t).event.getLsbD evParity = true ∧
          (∀ p, partOf s t = some p → (getPart s' p).taint = true) ∧ (getTile s' t).getQ q.toNat = Q ∧
          (getTile s' t).mem = T.mem ∧ (getTile s' t).pc = T.pc + 2) ∧
      (Q.used = 0 →
        Leaves (.qwait t ⟨d, false⟩ q) s t { V with st := .wait } ∧
        Leaves (.qpeek t ⟨d, false⟩ q) s t ((V.setG d (BitVec.allOnes 64)).retire 2) ∧
        Leaves (.qpop t ⟨d, false⟩ q) s t ((V.setG d 7).retire 2)) ∧
      (∀ r, T.headRec Q = some r → r.pad = false → r.remote = none → t.inGrid = true → r.src ≠ t →
        routeOf s true t r.src none ≠ .unreachable → s.mesh.flushing = [] →
        Leaves (.qwait t ⟨d, false⟩ q) s t ((V.setG d
          (BitVec.ofNat 64 (64 * Q.base.toNat + Q.rp.toNat % 2 ^ Q.log2.toNat))).retire 2) ∧
        Leaves (.qpeek t ⟨d, false⟩ q) s t ((V.setG d
          (BitVec.ofNat 64 (64 * Q.base.toNat + Q.rp.toNat % 2 ^ Q.log2.toNat))).retire 2) ∧
        ∃ (s' : State) (k : Pkt), exec (.qpop t ⟨d, false⟩ q) s = .next s' ∧ (getTile s' t).getQ q.toNat = Q.release r.size ∧
          (getTile s' t).getG d = (if d = 0 then T.getG 0 else 0) ∧ (getTile s' t).pc = T.pc + 2 ∧
          (getTile s' t).mem = T.mem ∧ mfind s'.mesh.pkts s.mesh.nextId = some k ∧ k.type = .msgAck ∧ k.src = t ∧
          k.dst = r.src ∧ k.ch = r.ch ∧ k.win = r.size))

/-- QOPEN of a channel that is not free writes 0x0B; with a reserved bit of the address, 0x05; to a queue of a live tile of the
same partition, on a free channel, an OPEN that asks for W (16,384 for 0) goes out and the channel is opening. QSEND of a local
message with enough credit takes rec(L) of it, numbers the message and leaves its status to come; where the channel is not pinned it
draws one word of the tile's generator, which steps once, and the message takes its route by the intermediate tile that the word's
halves give in the partition's box (R60, R248); a pinned one draws nothing. QCLOSE of an open channel makes it closing (R97, R98, R262
to R264).
Log entry 122: 0x0B before the address is looked at, 0x07 before the length; log entry 41: a W of more than 20 bits stands whole in
the OPEN; log entry 146: the route is taken at the issue. -/
def Obligations.SendChannelResults : Prop :=
  ∀ (s : State) (t : XY) (T : Tile) (d a b : Reg) (ch : Chan) (pin : Bool) (c : SendChan), s.ok = true → T = getTile s t →
    c = T.getChan ch → Issues s t 2 [d, a, b] →
    (c.st ≠ .free → Leaves (.qopen t d a b ch pin) s t ((T.setG d 0x0B).retire 2)) ∧
    (c.st = .free → 2 ^ 35 ≤ (T.getG a).toNat → Leaves (.qopen t d a b ch pin) s t ((T.setG d 0x05).retire 2)) ∧
    (∀ (u : XY) (q : BitVec 4) (p : Nat), c.st = .free →
      (T.getG a).toNat = u.x + 128 * u.y + 16384 * q.toNat → u.inGrid = true → tileLive s u = true →
      partOf s t = some p → partOf s u = some p → routeOf s false t u none ≠ .unreachable → s.mesh.flushing = [] →
      ∃ (s' : State) (k : Pkt), exec (.qopen t d a b ch pin) s = .next s' ∧ ((getTile s' t).getChan ch).st = .opening ∧
        ((getTile s' t).getChan ch).dst = u ∧ ((getTile s' t).getChan ch).queue = q ∧
        ((getTile s' t).getChan ch).win = (if T.getG b = 0 then 16384 else (T.getG b).toNat) ∧
        (d ≠ 0 → d ∈ (getTile s' t).await) ∧ (getTile s' t).g = T.g ∧
        mfind s'.mesh.pkts s.mesh.nextId = some k ∧ k.type = .opn ∧ k.dst = u ∧ k.queue = q ∧ k.ch = ch ∧
        k.win = (if T.getG b = 0 then 16384 else (T.getG b).toNat)) ∧
    (c.st ≠ .opened → (T.getG a).toNat % 64 = 0 → (T.getG a).toNat + (T.getG b).toNat ≤ 0x300000 →
      Leaves (.qsend t d a b ch) s t ((T.setG d 7).retire 2)) ∧
    (∀ (e : XY × Unit_) (w : Word32) (mid : XY), c.st = .opened → (T.getG a).toNat % 64 = 0 →
      (T.getG a).toNat + (T.getG b).toNat ≤ 0x300000 → 0 < (T.getG b).toNat → (T.getG b).toNat ≤ c.win → T.zeroising = false →
      T.qu.out.length + b2n (portBusy s t) < 8 → 64 * (((T.getG b).toNat + 16 + 63) / 64) ≤ c.credit →
      (c.pin = false → T.drawing = false) → chanEnd s c = some e → w = (genStep T.gen).2.2.2 →
      (∀ p, partOf s t = some p → (getPart s p).cfg.box = 0 → mid =
        ⟨16 * (getPart s p).fx + w.toNat % 65536 * (16 * (getPart s p).w) / 65536,
          16 * (getPart s p).fy + w.toNat / 65536 * (16 * (getPart s p).h) / 65536⟩) →
      ((∃ p, partOf s t = some p ∧ (getPart s p).cfg.box ≠ 0) ∨ partOf s t = none → mid =
        ⟨w.toNat % 65536 * 112 / 65536, w.toNat / 65536 * 112 / 65536⟩) →
      ∃ (s' : State) (o : OutMsg), exec (.qsend t d a b ch) s = .next s' ∧ (getTile s' t).qu.out = T.qu.out ++ [o] ∧ o.d = d ∧
        o.ch = ch ∧ o.off = (T.getG a).toNat ∧ o.len = (T.getG b).toNat ∧ o.seq = c.seq ∧ o.pin = c.pin ∧
        o.route = routeOf s false t e.1 (if c.pin then none else some mid) ∧
        (getTile s' t).gen = (if c.pin then T.gen else genStep T.gen) ∧
        (getTile s' t).getChan ch =
          { c with credit := c.credit - 64 * (((T.getG b).toNat + 16 + 63) / 64), seq := c.seq + 1 } ∧
        (d ≠ 0 → d ∈ (getTile s' t).await) ∧ (getTile s' t).g = T.g ∧ (getTile s' t).mem = T.mem) ∧
    (c.st = .opened → Leaves (.qclose t d ch) s t
      (((T.setChan ch { c with st := .closing, d := d, closeSent := false }).awaits d).retire 2)) ∧
    (c.st ≠ .opened → Leaves (.qclose t d ch) s t ((T.setG d 7).retire 2))

/-- The queue unit's own steps: a held QSEND whose timer expires writes 0x08 and sets SEND_STALL; an issued message whose last
byte has left writes 0x00; a closing channel whose credit is back sends its CLOSE; an expired response timer ends a
transaction as an error, an OPEN with 0x07 and a free channel, and a CLOSE with 0x07, the channel then free where the CLOSE had been
sent and open where it had not (R98, R252, R263, R264), also while the tile's CCLK is stopped; the expiry of a BAR2 read ends it with
Completer Abort (R310; that it counts in 0x2800:08 is log entry 171).
The TAG of an OPEN or CLOSE, by which a later answer is told apart, is log entry 123; that a train stands at the port when its message
has been injected, one at a time, is log entry 147. -/
def Obligations.QueueTimerResults : Prop :=
  ∀ (s : State) (t : XY) (T : Tile) (d : Reg) (ch : Chan) (off len : Nat) (c : SendChan), s.ok = true → T = getTile s t →
    c = T.getChan ch → tileLive s t = true →
    (T.qu.held = some (d, ch, off, len) → canIssue s t = true → T.st = .wait →
      c.credit < 64 * ((len + 16 + 63) / 64) →
      ∃ s' : State, exec (.sendStall t) s = .next s' ∧ (getTile s' t).getG d = (if d = 0 then T.getG 0 else 8) ∧
        (getTile s' t).event.getLsbD evSendStall = true ∧ (getTile s' t).pc = T.pc + 2 ∧ (getTile s' t).qu.held = none ∧
        (getTile s' t).qu.stalled = ch) ∧
    (∀ (m : OutMsg) (rest : List OutMsg) (e : XY × Unit_), T.qu.out = m :: rest → m.ch = ch → m.d = d → padRuns s t = true →
      portBusy s t = false → T.behind .msg ≤ rest.length → T.ecc = [] → chanEnd s c = some e → m.route ≠ .unreachable → s.mesh.flushing = [] →
      ∃ (s' : State) (k : Pkt), exec (.msgInjected t) s = .next s' ∧ (getTile s' t).qu.out = rest ∧
        (getTile s' t).getG d = (if d = 0 then T.getG 0 else 0) ∧ (getTile s' t).mem = T.mem ∧
        mfind s'.mesh.pkts s.mesh.nextId = some k ∧ k.type = .msg ∧ k.dst = e.1 ∧ k.ch = ch ∧ k.seq = m.seq ∧
        k.len = m.len ∧ k.payload = T.mem.bytes m.off m.len ∧ k.poison = false) ∧
    (∀ (e : XY × Unit_), c.st = .closing → c.closeSent = false → c.credit = recBytes c.win → unitRuns s t = true →
      chanEnd s c = some e → routeOf s false t e.1 none ≠ .unreachable → s.mesh.flushing = [] →
      ∃ (s' : State) (k : Pkt), exec (.closeSend t ch) s = .next s' ∧ (getTile s' t).getChan ch =
          { c with closeSent := true, tag := T.qu.asks } ∧
        mfind s'.mesh.pkts s.mesh.nextId = some k ∧ k.type = .cls ∧ k.dst = e.1 ∧ k.ch = ch ∧ k.win = c.win) ∧
    (∀ (g : Nat) (x : Tx), timersRun s t = true → mfind T.tx g = some x → mrising T.tx = true → T.st = .run → T.run = true →
      T.fences.contains (.send g) = false → T.fences.contains (.put g) = false →
      ∃ s' : State, exec (.responseTimeout t (.transaction g)) s = .next s' ∧ mfind (getTile s' t).tx g = none ∧
        (getTile s' t).st = .fault ∧ (getTile s' t).event.getLsbD evAddrFault = true ∧
        total s' 0x2800 8 = total s 0x2800 8 + 1) ∧
    (c.st = .opening → timersRun s t = true → mrising T.qu.chans = true →
      ∃ s' : State, exec (.responseTimeout t (.opening ch)) s = .next s' ∧ (getTile s' t).getChan ch = ({} : SendChan) ∧
        (getTile s' t).getG c.d = (if c.d = 0 then T.getG 0 else 7) ∧ total s' 0x2800 8 = total s 0x2800 8 + 1) ∧
    (∀ (h : HPort) (f : Fn) (id i : Nat), s.power.on = true → f.port = h → mfind (portOf s h).bar2 id = some (f, i) →
      mrising (portOf s h).bar2 = true →
      ∃ s' : State, exec (.responseTimeout t (.bar2 h id)) s = .next s' ∧ s'.out = s.out ++ [Output.bar2Abort f id] ∧
        mfind (portOf s' h).bar2 id = none ∧ total s' 0x2800 8 = total s 0x2800 8 + 1 ∧ s'.tiles = s.tiles) ∧
    (c.st = .closing → timersRun s t = true → mrising T.qu.chans = true →
      ∃ s' : State, exec (.responseTimeout t (.closing ch)) s = .next s' ∧
        (getTile s' t).getChan ch = (if c.closeSent then ({} : SendChan) else { c with st := .opened }) ∧
        (getTile s' t).getG c.d = (if c.d = 0 then T.getG 0 else 7) ∧ total s' 0x2800 8 = total s 0x2800 8 + 1)

/-! ### Streams -/

/-- SGET takes the head token of the active slot into a half of v[D] with its KIND in g[gk], and its credit goes back; SPUT
puts a token of the active slot and load tag on the link and uses one credit; SGETM, SPUTM and SPASS leave the count to come;
with no token or no credit the core holds (R100, R101, R173, R175, R179 to R181).
That SPUTM's token is on the link at once is log entry 38, and that a range fault of SGETM or SPUTM comes before a busy unit log
entry 24. -/
def Obligations.StreamInstructionResults : Prop :=
  ∀ (s : State) (t u : XY) (T : Tile) (d a b gk : Reg) (p q : Port) (h fin : Bool) (x : BitVec 256) (k : Token), s.ok = true →
    T = getTile s t → Issues s t 2 [d, a, b, gk] → T.awaitV = [] → neighbour s t p = some u →
    x = ((T.getV d).extractLsb' (if h then 256 else 0) 256) →
    k = ⟨x, if fin then 3 else 0, parOf x, T.active, T.activeSlot.tag⟩ →
    (T.outBusy p = false → T.outMode p = 1 → hasCredit s t p T.active = true →
      ∃ s' : State, exec (.sput t d p h fin) s = .next s' ∧ OnlyTile t s s' ∧
        mget [] (getTile s' t).su.link p.toNat = mget [] T.su.link p.toNat ++ [k] ∧
        mget 0 (getTile s' t).su.used (creditKey p T.active) =
          mget 0 T.su.used (creditKey p T.active) + 1 ∧
        (getTile s' t).g = T.g ∧ (getTile s' t).v = T.v ∧ (getTile s' t).mem = T.mem ∧ (getTile s' t).pc = T.pc + 2) ∧
    (T.outMode p ≠ 1 ∨ hasCredit s t p T.active = false → exec (.sput t d p h fin) s = .next (waitCore s t)) ∧
    (∀ (c : Token) (rest : List Token), T.inBusy p = false → T.multi = false → T.inputs p = c :: rest → c.slot = T.active →
      c.kind = 0 ∨ c.kind = 3 → c.parOk = true → T.inMask p = 1 → mrising T.su.inq = true →
      ∃ s' : State, exec (.sget t d p h gk) s = .next s' ∧
        ((getTile s' t).getV d).extractLsb' (if h then 256 else 0) 256 = c.data ∧
        ((getTile s' t).getV d).extractLsb' (if h then 0 else 256) 256 = (T.getV d).extractLsb' (if h then 0 else 256) 256 ∧
        (gk ≠ 0 → (getTile s' t).getG gk = c.kind.setWidth 64) ∧ (getTile s' t).inputs p = rest ∧
        (getTile s' t).pc = T.pc + 2 ∧ (getTile s' t).mem = T.mem ∧
        mget [] (getTile s' u).su.pulses (oppPort p).toNat =
          mget [] (getTile s u).su.pulses (oppPort p).toNat ++ [c.slot.toNat]) ∧
    (T.inputs p = [] → exec (.sget t d p h gk) s = .next (waitCore s t)) ∧
    (∀ n (e : Option Nat), n = (T.getG b).toNat → Calm T → T.zeroising = false → (T.getG a).toNat % 32 = 0 → (T.getG a).toNat + 32 * n ≤ 0x300000 →
      0 < n →
      (T.inputs p = [] → Leaves (.sgetm t ⟨d, e⟩ a b p) s t
        (({ T.laterIf .dma with su := { T.su with
          dmas := [⟨.getm, d, p, 0, (T.getG a).toNat, n, 0, false, [], false, false, e⟩] } }.awaits d).retire 2)) ∧
      (n = 1 → T.fenced = false → T.behind .dma = 0 → T.ecc = [] → T.outMode p = 1 → hasCredit s t p T.active = true → ∃ s' : State, exec (.sputm t d a b p fin) s = .next s' ∧
        OnlyTile t s s' ∧ mget [] (getTile s' t).su.link p.toNat = mget [] T.su.link p.toNat ++
          [⟨tokenAt T (T.getG a).toNat, if fin then 3 else 0, parOf (tokenAt T (T.getG a).toNat), T.active, T.activeSlot.tag⟩] ∧
        (getTile s' t).su.dmas.map (fun m => (m.d, m.moved, m.ended)) = [(d, 1, true)] ∧
        (d ≠ 0 → d ∈ (getTile s' t).await) ∧ (getTile s' t).mem = T.mem ∧ (getTile s' t).g = T.g)) ∧
    ((T.getG a).toNat % 32 ≠ 0 ∨ 0x300000 < (T.getG a).toNat + 32 * (T.getG b).toNat →
      exec (.sgetm t ⟨d, none⟩ a b p) s = .next (faultCore s t evAddrFault) ∧
      exec (.sputm t d a b p fin) s = .next (faultCore s t evAddrFault)) ∧
    (Calm T → T.inputs p = [] → Leaves (.spass t d b p q) s t
      (({ T with su := { T.su with dmas := [⟨.pass, d, p, q, 0, (T.getG b).toNat, 0, false, [], false, false, none⟩] } }.awaits
        d).retire 2))

/-- A token on the link enters the entries of the port, or the configuration buffer; a returned credit frees one; a routed
head goes unchanged to the output its input names; a stream DMA that has ended writes its count, and an SGETM without a new
token writes the tokens gathered (R175, R176, R179, R187). A token whose SBP is wrong sets PARITY and counts in 0x2400:03 (R174); that
it is dropped is log entry 126. -/
def Obligations.StreamLinkResults : Prop :=
  ∀ (s : State) (t u : XY) (T : Tile) (p : Port), s.ok = true → T = getTile s t → unitRuns s t = true →
    neighbour s t p = some u →
    (∀ (k : Token) (rest : List Token), mget [] (getTile s u).su.link (oppPort p).toNat = k :: rest → Calm T →
      mrising (getTile s u).su.link = true →
      (k.kind ≠ 2 → ∃ s' : State, exec (.tokenArrival t p .none) s = .next s' ∧ (getTile s' t).inputs p = T.inputs p ++ [k] ∧
        mget [] (getTile s' u).su.link (oppPort p).toNat = rest ∧ (getTile s' t).mem = T.mem ∧ (getTile s' t).g = T.g) ∧
      (k.kind = 2 → ∃ s' : State, exec (.tokenArrival t p .none) s = .next s' ∧
        mget [] (getTile s' t).su.cfgq p.toNat = mget [] T.su.cfgq p.toNat ++ [k] ∧
        mget [] (getTile s' u).su.link (oppPort p).toNat = rest ∧ (getTile s' t).su.inq = T.su.inq) ∧
      (partOf s t = none → ∃ s' : State, exec (.tokenArrival t p .sbp) s = .next s' ∧ (getTile s' t).su.inq = T.su.inq ∧
        (getTile s' t).event.getLsbD evParity = true ∧ total s' 0x2400 3 = total s 0x2400 3 + 1)) ∧
    (∀ (lane : Nat) (rest : List Nat), mget [] T.su.pulses p.toNat = lane :: rest → lane < 4 →
      Calm T → mrising T.su.used = true → mrising T.su.pulses = true →
      ∃ s' : State, exec (.creditReturn t p false) s = .next s' ∧ OnlyTile t s s' ∧
        mget 0 (getTile s' t).su.used (4 * p.toNat + lane) = mget 0 T.su.used (4 * p.toNat + lane) - 1 ∧
        mget [] (getTile s' t).su.pulses p.toNat = rest) ∧
    (∀ (o : Port) (k : Token) (rest : List Token), T.multi = false → T.inputs p = k :: rest → k.slot = T.active → k.kind = 0 →
      T.inMask p = 2 ^ (o.toNat + 1) → T.outMode o = 2 → hasCredit s t o k.slot = true → mrising T.su.inq = true →
      ∃ s' : State, exec (.routedForward t p) s = .next s' ∧
        mget [] (getTile s' t).su.link o.toNat = mget [] T.su.link o.toNat ++ [k] ∧ (getTile s' t).inputs p = rest ∧
        mget [] (getTile s' u).su.pulses (oppPort p).toNat =
          mget [] (getTile s u).su.pulses (oppPort p).toNat ++ [k.slot.toNat]) ∧
    (∀ (n : Nat) (m : StreamDma), T.su.dmas[n]? = some m → m.ended = true → T.behind .dma = 0 →
      Leaves (.streamDmaComplete t n) s t
        ({ T with su := { T.su with dmas := T.su.dmas.eraseIdx n } }.deliver m.d (BitVec.ofNat 64 m.moved))) ∧
    (∀ (n : Nat) (m : StreamDma), T.su.dmas[n]? = some m → m.ended = false → m.kind = .getm → m.line ≠ [] → T.ecc = [] →
      T.zeroising = false → m.bad = none →
      ∃ s' : State, exec (.sgetmLineFlush t n) s = .next s' ∧ OnlyTile t s s' ∧
        (getTile s' t).mem = T.mem.store (m.off + 32 * (m.moved - m.line.length)) (m.line.flatMap (fun x => natBytes 32 x.toNat)) ∧
        (getTile s' t).su.dmas[n]? = some { m with line := [] } ∧ (getTile s' t).g = T.g)

/-- The detour ring of the active slot: a gathered token goes to the scratchpad at its place in the ring, the oldest line is
read back in order, and an END leaves for DT_OUT once the ring is empty (R197, R200). That a read of the ring ends at a line boundary of
the ring, after 8 - rd mod 8 tokens at most, is log entry 40. -/
def Obligations.DetourRingResults : Prop :=
  ∀ (s : State) (t : XY) (T : Tile) (v : Slot) (r : Ring), s.ok = true → T = getTile s t → unitRuns s t = true →
    v = T.activeSlot → r = T.ring T.active → v.dtLog2 ≠ 0 → T.ecc = [] → T.su.dmas = [] → T.zeroising = false →
    (∀ k, r.gather = [k] → k.parOk = true →
      ∃ s' : State, exec (.detourLineWrite t) s = .next s' ∧ OnlyTile t s s' ∧
        (getTile s' t).mem = T.mem.store (v.dtBase.toNat + 32 * (r.wr % (2 ^ v.dtLog2.toNat / 32))) (natBytes 32 k.data.toNat) ∧
        (getTile s' t).ring T.active = { r with gather := [], wr := r.wr + 1, tags := r.tags ++ [k.ltag] } ∧
        (getTile s' t).g = T.g) ∧
    (∀ n, n = min (8 - r.rd % 8) (r.wr - r.rd) → r.ready = [] → r.rd < r.wr → n ≤ r.tags.length →
      T.outMode v.dtPort ≠ 2 →
      ∃ s' : State, exec (.detourLineRead t) s = .next s' ∧ OnlyTile t s s' ∧
        (∀ i < n, (((getTile s' t).ring T.active).ready[i]?).map (·.data) =
          some (tokenAt T (v.dtBase.toNat + 32 * (r.rd % (2 ^ v.dtLog2.toNat / 32)) + 32 * i))) ∧
        ((getTile s' t).ring T.active).ready.length = n ∧ ((getTile s' t).ring T.active).rd = r.rd + n ∧
        (getTile s' t).mem = T.mem) ∧
    (∀ p k rest, r.gather = [] → r.ready = [] → r.rd = r.wr → allPorts.find? T.toDetour = some p → T.inMask p = 32 →
      T.multi = false → T.inputs p = k :: rest → k.slot = T.active → k.kind = 3 → hasCredit s t v.dtPort k.slot = true →
      mrising T.su.inq = true →
      ∃ s' : State, exec (.detourMarkerRelease t) s = .next s' ∧
        mget [] (getTile s' t).su.link v.dtPort.toNat = mget [] T.su.link v.dtPort.toNat ++ [k] ∧
        (getTile s' t).inputs p = rest)

/-! ### Configuration -/

/-- CSW: to the active slot, status 0x00 and nothing more; to an invalid slot 0x07; to a slot whose entries or queues hold
another load 0x0B; otherwise the slot is active and the next instruction is its entry point. CLOAD into the active slot writes
0x03 (R186); into another slot it issues and its status is to come: 0x05 for a bundle at an address that is not 32-byte aligned;
for a bundle that is well formed (R184) with valid sections (R185) the slot takes its section and is not valid yet, or, where its
queue mask overlaps that of another valid slot, 0x0B and CFG_REFUSED (R57); after a load that still works it waits in turn, and
behind an open local fence for the fence (R105); a bundle that arrives with wrong parity is invalid, sets PARITY and taints the step
(R214, R456; log entry 142). CFLUSH empties the slot's entries and ring; CFLUSH.Q also releases its records
(R192). EPOCH closes the port behind the marker (R184 to R195).
That a slot whose section overlaps keeps what it held, VALID included, is log entry 43. -/
def Obligations.ConfigInstructionResults : Prop :=
  ∀ (s : State) (t : XY) (T : Tile) (d a sl mask : Reg) (b : BitVec 2), s.ok = true → T = getTile s t →
    sl.toNat < 4 → b = sl.setWidth 2 → Issues s t 1 [d, a] → Calm T →
    (matEmpty T.mat = true → T.vecEmpty = true → T.activeSlot.ovNext = false → mrising T.slots = true →
      (b = T.active → Leaves (.csw t d sl) s t ((T.setG d 0).retire 1)) ∧
      (b ≠ T.active → (T.getSlot b).valid = false → Leaves (.csw t d sl) s t ((T.setG d 7).retire 1)) ∧
      (b ≠ T.active → (T.getSlot b).valid = true → T.foreignHeld b = true →
        Leaves (.csw t d sl) s t ((T.setG d 0x0B).retire 1)) ∧
      (b ≠ T.active → (T.getSlot b).valid = true → (T.getSlot b).auto = false → T.foreignHeld b = false →
        (∀ p, T.inputs p = []) →
        ∃ s' : State, exec (.csw t d sl) s = .next s' ∧ (getTile s' t).active = b ∧
          (getTile s' t).pc = (T.getSlot b).entry.setWidth 13 ∧ (getTile s' t).st = .run ∧
          (getTile s' t).getSlot b = T.getSlot b ∧ (d ≠ 0 → (getTile s' t).getG d = 0) ∧ (getTile s' t).mem = T.mem ∧
          total s' 0x2400 6 = total s 0x2400 6 + 1)) ∧
    (∀ e : Bool, T.zeroising = false → b = T.active → Leaves (.cload t d ⟨a, e⟩ sl) s t ((T.setG d 3).retire 1)) ∧
    (∀ e : Bool, T.zeroising = false → T.fenced = true → b ≠ T.active → Leaves (.cload t d ⟨a, e⟩ sl) s t
      (((T.awaits d).later (.cload ⟨d, b, (T.getG a).toNat, none, e⟩)).retire 1)) ∧
    (∀ e : Bool, PadFree T → b ≠ T.active → T.su.loading = true → Leaves (.cload t d ⟨a, e⟩ sl) s t
      { (T.awaits d).retire 1 with su := { T.su with cwait := T.su.cwait ++ [⟨d, b, (T.getG a).toNat, none, e⟩] } }) ∧
    (∀ (strict : Bool) (secs : List (List Byte)), PadFree T → b ≠ T.active → T.su.loading = false → T.ecc = [] →
      mrising T.slots = true → strict = (match partOf s t with
        | none => true
        | some p => decide ((getPart s p).cfg.reconf = 0)) →
      (readBundle s t (T.getG a).toNat strict).2 = some secs →
      ∃ s' r, exec (.cload t d ⟨a, false⟩ sl) s = .next s' ∧ OnlyTile t s s' ∧ (getTile s' t).su.cload = some r ∧ r.d = d ∧
        r.slot = b ∧ r.host = none ∧ (d ≠ 0 → d ∈ (getTile s' t).await) ∧ (getTile s' t).pc = T.pc + 1 ∧
        (getTile s' t).mem = T.mem ∧ (getTile s' t).g = T.g ∧
        (∀ l, secs.find? (fun l => decide (secDest l = destOf t)) = some l →
          (maskOverlaps T b (secQmask l) = false → r.st = 0 ∧ r.loads = true ∧ (getTile s' t).getSlot b =
            { sectionSlot l with valid := false, judged := false, load := (T.getSlot b).load }) ∧
          (maskOverlaps T b (secQmask l) = true → r.st = 0x0B ∧ r.loads = false ∧
            (getTile s' t).event.getLsbD evCfgRefused = true ∧ (getTile s' t).getSlot b = T.getSlot b)) ∧
        (secs.find? (fun l => decide (secDest l = destOf t)) = none → r.st = 0 ∧ r.loads = false ∧
          (getTile s' t).slots = T.slots)) ∧
    (∀ e : Bool, PadFree T → b ≠ T.active → T.su.loading = false → (T.getG a).toNat % 32 ≠ 0 →
      Leaves (.cload t d ⟨a, e⟩ sl) s t
        { (T.awaits d).retire 1 with su := { T.su with cload := some ⟨d, 5, b, false, none⟩, cfgNext := none } }) ∧
    (PadFree T → b ≠ T.active → T.su.loading = false → (T.getG a).toNat % 32 = 0 → (T.getG a).toNat + 32 ≤ 0x300000 → T.ecc = [] →
      NoRequests s → mrising s.parts = true →
      ∃ s' : State, exec (.cload t d ⟨a, true⟩ sl) s = .next s' ∧ (getTile s' t).su.cload = some ⟨d, 5, b, false, none⟩ ∧
        (getTile s' t).slots = T.slots ∧ (getTile s' t).event.getLsbD evParity = true ∧
        (∀ p, partOf s t = some p → (getPart s' p).taint = true)) ∧
    (b = T.active → Leaves (.cflush t d sl) s t ((T.setG d 3).retire 1) ∧
      ∀ e : Bool, T.zeroising = false → Leaves (.cflushQ t ⟨d, e⟩ sl) s t ((T.setG d 3).retire 1)) ∧
    (b ≠ T.active → mrising T.su.inq = true → mrising T.su.rings = true →
      (∃ s' : State, exec (.cflush t d sl) s = .next s' ∧ (d ≠ 0 → (getTile s' t).getG d = 0) ∧ (getTile s' t).ring b = {} ∧
        (∀ p, (getTile s' t).inputs p = (T.inputs p).filter (fun k => decide (k.slot ≠ b))) ∧ (getTile s' t).qu.qs = T.qu.qs ∧
        (getTile s' t).mem = T.mem ∧ (getTile s' t).pc = T.pc + 1) ∧
      (∀ (q : Nat) (r : Landed), T.zeroising = false → T.multi = true → mrising T.qu.qs = true → q < 16 → (T.getSlot b).qmask = 1#16 <<< q →
        T.ecc = [] → 6 ≤ (T.getQ q).log2.toNat →
        ((T.getQ q).used = 0 ∨ (T.headRec (T.getQ q) = some r ∧ r.pad = false ∧ r.size = (T.getQ q).used ∧ r.remote = none ∧
          r.src ≠ t ∧ routeOf s true t r.src none ≠ .unreachable ∧ s.mesh.flushing = [])) →
        ∃ s' : State, exec (.cflushQ t ⟨d, false⟩ sl) s = .next s' ∧ (d ≠ 0 → (getTile s' t).getG d = 0) ∧ (getTile s' t).pc = T.pc + 1 ∧
          (getTile s' t).mem = T.mem ∧
          (∀ p, (getTile s' t).inputs p = (T.inputs p).filter (fun k => decide (k.slot ≠ b))) ∧
          ((getTile s' t).getQ q).used = 0 ∧ ((getTile s' t).getQ q).wp = (T.getQ q).wp ∧
          (∀ j < 16, j ≠ q → (getTile s' t).getQ j = T.getQ j) ∧
          ((T.getQ q).used ≠ 0 → ∃ k, mfind s'.mesh.pkts s.mesh.nextId = some k ∧ k.type = .msgAck ∧ k.dst = r.src ∧
            k.ch = r.ch ∧ k.win = r.size))) ∧
    (∀ (o : Port) (u : XY), mask.toNat = 2 ^ o.toNat → T.outMode o = 1 → neighbour s t o = some u →
      hasCredit s t o T.active = true →
      ∃ (s' : State) (k : Token), exec (.epoch t d mask sl) s = .next s' ∧ OnlyTile t s s' ∧
        mget [] (getTile s' t).su.link o.toNat = mget [] T.su.link o.toNat ++ [k] ∧ k.kind = 1 ∧ k.slot = T.active ∧
        k.data.toNat % 65536 = sl.toNat ∧ k.target = (T.getG d).setWidth 16 ∧
        mget false (getTile s' t).su.closed (4 * o.toNat + T.active.toNat) = true ∧ (getTile s' t).pc = T.pc + 1)

/-- A CLOAD completes with its status, the slot becoming valid last; foreign sections go out as CONFIG tokens toward DEST with
one of two configuration credits; a token at its destination begins the load of the slot, which is invalid meanwhile; a token
for another tile goes on; a route-only tile switches by itself (R186 to R189, R195, R196). A slot whose load begins is invalid and its
instruction buffer cleared (R481). -/
def Obligations.ConfigPathResults : Prop :=
  ∀ (s : State) (t : XY) (T : Tile), s.ok = true → T = getTile s t → unitRuns s t = true →
    (∀ r, T.su.cload = some r → r.host = none → r.loads = true → T.su.cfgNext = none → T.su.cwait = [] →
      maskOverlaps T r.slot (T.getSlot r.slot).qmask = false →
      ∃ s' : State, exec (.cloadComplete t) s = .next s' ∧ OnlyTile t s s' ∧ ((getTile s' t).getSlot r.slot).valid = true ∧
        ((getTile s' t).getSlot r.slot).ibuf = (T.getSlot r.slot).ibuf ∧
        (r.d ≠ 0 → (getTile s' t).getG r.d = r.st.setWidth 64) ∧ (getTile s' t).su.cload = none) ∧
    (∀ (sl : BitVec 2) (dest : Nat) (tag : Half) (l : List Byte) (rest : List (Nat × Half × List Byte)) (i : Nat) (p : Port),
      T.su.cfgSend = some ⟨sl, (dest, tag, l) :: rest, i⟩ → p = towardPort t (destTile dest) → destOk s t (destTile dest) = true →
      (neighbour s t p).isSome = true → mget 0 T.su.cfgUsed p.toNat < 2 → i + 1 < (l.length + 23) / 24 →
      Leaves (.configTokenSend t) s t { T with su := { T.su with
        link := mset [] T.su.link p.toNat (mget [] T.su.link p.toNat ++ [configTok sl dest tag l i])
        cfgUsed := mset 0 T.su.cfgUsed p.toNat (mget 0 T.su.cfgUsed p.toNat + 1)
        cfgSend := some ⟨sl, (dest, tag, l) :: rest, i + 1⟩ } }) ∧
    (∀ (p : Port) (u : XY) (k : Token) (rest : List Token), mget [] T.su.cfgq p.toNat = k :: rest → neighbour s t p = some u →
      mrising T.su.cfgq = true → mrising T.slots = true → k.parOk = true →
      (destTile (k.data.toNat % 65536) = t → k.data.toNat / 65536 % 65536 = 0 → k.slot ≠ T.active →
        (T.getSlot k.slot).load = none →
        ∃ s' x, exec (.configToken t p) s = .next s' ∧ ((getTile s' t).getSlot k.slot).valid = false ∧
          ((getTile s' t).getSlot k.slot).ibuf = [] ∧ ((getTile s' t).getSlot k.slot).load = some x ∧ x.next = 1 ∧
          x.bytes = (natBytes 32 k.data.toNat).drop 8 ∧ mget [] (getTile s' t).su.cfgq p.toNat = rest ∧
          mget [] (getTile s' u).su.pulses (oppPort p).toNat = mget [] (getTile s u).su.pulses (oppPort p).toNat ++ [4]) ∧
      (∀ o, destTile (k.data.toNat % 65536) ≠ t → destOk s t (destTile (k.data.toNat % 65536)) = true →
        o = towardPort t (destTile (k.data.toNat % 65536)) → (neighbour s t o).isSome = true →
        mget 0 T.su.cfgUsed o.toNat < 2 →
        ∃ s' : State, exec (.configToken t p) s = .next s' ∧
          mget [] (getTile s' t).su.link o.toNat = mget [] T.su.link o.toNat ++ [k] ∧
          mget [] (getTile s' t).su.cfgq p.toNat = rest ∧ (getTile s' t).slots = T.slots)) ∧
    (∀ b, T.activeSlot.auto = true → T.activeSlot.ovNext = true → b = T.activeSlot.next → b ≠ T.active →
      (T.getSlot b).judged = true → (T.getSlot b).refused = false → (T.getSlot b).valid = true →
      T.activeSlot.inMask = 0 → Calm T → (∀ p, T.inputs p = []) →
      ∃ s' : State, exec (.autoSwitch t) s = .next s' ∧ (getTile s' t).active = b ∧
        (getTile s' t).pc = (T.getSlot b).entry.setWidth 13 ∧ total s' 0x2400 5 = total s 0x2400 5 + 1)

/-! ### System instructions and the barrier -/

/-- GTC, PHASE, EVT, HALT, FENCE and STEP (R72, R103 to R106, R373, R388).
FENCE_COMPLETE writes 0 once every access before the fence has taken effect: for mode 2 once no remote transaction is
outstanding, and for mode 1 once the units have no scratchpad access left, when a store that waited behind it takes effect; while
they have, nothing happens (R105). That a PHASE index of 8 to 31 and a FENCE mode of 0 or of 4 to 31 fault is log entry 52 (mode 0: Table
3.20). -/
def Obligations.SystemResults : Prop :=
  (∀ (s : State) (t : XY) (T : Tile) (d a : Reg), s.ok = true → T = getTile s t → Issues s t 1 [d, a] →
    Leaves (.gtc t d) s t ((T.setG d (BitVec.ofNat 64 (gtcOf s t.field))).retire 1) ∧
    (∀ ix : Reg, ix.toNat < 8 → ∃ s' : State, exec (.phase t ix) s = .next s' ∧ (getTile s' t).pc = T.pc + 1 ∧
      (getTile s' t).g = T.g ∧ (∀ p, partOf s t = some p → (getPart s' p).phase = ix.setWidth 3)) ∧
    (∀ ix : Reg, 8 ≤ ix.toNat → exec (.phase t ix) s = .next (faultCore s t evAddrFault)) ∧
    (∃ s' : State, exec (.evt t a) s = .next s' ∧ OnlyTile t s s' ∧ (getTile s' t).event = T.event ||| (1#14 <<< evSwEvt) ∧
      (getTile s' t).g = T.g ∧ (getTile s' t).traceWp = T.traceWp + 1 ∧
      mget 0 (getTile s' t).trace (T.traceWp.toNat % 256) =
        traceWord (gtcOf s t.field) 2 T.active.toNat ((T.getG a).toNat % 2 ^ 32)) ∧
    (∃ s' : State, exec (.halt t) s = .next s' ∧ OnlyTile t s s' ∧ (getTile s' t).st = .halt ∧ (getTile s' t).run = T.run ∧
      (getTile s' t).event.getLsbD evHalted = true ∧ (getTile s' t).g = T.g ∧ (getTile s' t).mem = T.mem) ∧
    (∀ m : Reg, m = 1 ∨ m = 2 ∨ m = 3 → Leaves (.fence t d m) s t
      (((T.awaits d).later (.fence d (m.getLsbD 0) (m.getLsbD 1))).retire 1)) ∧
    (∀ m : Reg, m ≠ 1 → m ≠ 2 → m ≠ 3 → exec (.fence t d m) s = .next (faultCore s t evAddrFault)) ∧
    (∀ p, partOf s t = some p → t.key ∉ (getPart s p).arrived → comparePending s T = false →
      ∃ s' : State, exec (.step t d) s = .next s' ∧ getTile s' t = { T with st := .barrier, stepD := some d } ∧
        (getPart s' p).arrived = t.key :: (getPart s p).arrived ∧ (getPart s' p).n = (getPart s p).n)) ∧
  (∀ (s : State) (t : XY) (T : Tile) (d : Reg), s.ok = true → T = getTile s t → padRuns s t = true →
    (T.fences = [Held.fence d false true] →
      (T.tx = [] → Leaves (.fenceComplete t) s t ({ T with fences := [] }.deliver d 0)) ∧
      (T.tx ≠ [] → exec (.fenceComplete t) s = .next s)) ∧
    (∀ (a : Nat) (l : List Byte), T.fences = [Held.fence d true false, .store a l none] → T.ecc = [] →
      (localDone s t = true → ∃ s' : State, exec (.fenceComplete t) s = .next s' ∧ OnlyTile t s s' ∧
        (getTile s' t).mem = T.mem.store a l ∧ (getTile s' t).fences = [] ∧ (d ≠ 0 → (getTile s' t).getG d = 0) ∧
        (getTile s' t).await = T.await.erase d) ∧
      (localDone s t = false → exec (.fenceComplete t) s = .next s)))

/-- The barrier is released once every tile of the partition has arrived, with every tile's CCLK running (R368), and, where the
partition is RUNNING, no due row has still to step (R428): the step number
rises by one modulo 2^56, the arrivals are cleared, and every waiting tile receives the step number with 0x00, or 0x0A for a
tainted step under the policy MARK, and runs on (R103, R147). -/
def Obligations.StepReleases : Prop :=
  ∀ (s : State) (p n : Nat) (b : Byte) (P : Part), s.ok = true → P = getPart s p → P.resetting = none →
    s.boot.resetting = none → P.arrived ≠ [] → (∀ t ∈ partTiles s P, t.key ∈ P.arrived ∧ clockOn s t = true) →
    (P.st = .running → dueRows s p = []) →
    n = (P.n + 1) % 2 ^ 56 → b = (if P.taint = true ∧ P.cfg.policy = 1 then 0x0A else 0) →
    ∃ s' : State, exec (.stepRelease p) s = .next s' ∧ (getPart s' p).n = n ∧ (getPart s' p).arrived = [] ∧
      (getPart s' p).taint = false ∧ (getPart s' p).taintN = P.taint ∧
      (∀ t ∈ partTiles s P, ∀ d, (getTile s t).stepD = some d →
        (getTile s' t).st = .run ∧ (getTile s' t).stepD = none ∧ (getTile s' t).pc = (getTile s t).pc + 1 ∧
        (getTile s' t).mem = (getTile s t).mem ∧
        (d ≠ 0 → (getTile s' t).getG d = BitVec.ofNat 64 (256 * n + b.toNat))) ∧
      (∀ t : XY, t.inGrid = true → t ∉ partTiles s P → getTile s' t = getTile s t)

/-! ### The spare walk -/

/-- A row steps: the excluded site moves to the next PC down and from 0 to 16, the site that it vacates begins to zeroise (R74), its visit
begins, and the counters count. The
step is taken when it falls due where the partition is not RUNNING, in the rotation window of the barrier, or in a forced window
after the walk deadline. A passed visit ends with the count 0x5000:02, and only its own block's clock pauses it (R426 to R429, R433, R434).
That a row keeps a list of due steps, of which the oldest is taken and the new one stays, is log entry 55.
The check bits: the write-back of a corrected row clears the single-bit errors of its row and leaves an uncorrectable word as it
is; scrub counts a single-bit error at the bank's pointer, whose row then waits for its write-back, and the pointer advances, also
at a site that holds no logical tile (its event at once: log entry 152); the end of a zeroise, whose 12,288 wide accesses are counted,
lets accesses proceed (R71, R74, R213, R215). -/
def Obligations.SpareWalkResults : Prop :=
  (∀ (s : State) (f r p g : Nat) (w : Row), s.ok = true → f < 49 → r < 16 → w = getRow s f r → w.kind = .spare →
    fieldAlive s f = true → fieldClocked s f = true → s.boot.resetting = none →
    (∀ u, (getTile s u).event = 0 ∧ (getTile s u).raised = [] ∧ (getTile s u).ecc = []) → rowSettled s f r = true →
    (s.boot.st = .ready → w.visit = false → rowStopped s f r = false → (getField s f).stopped = false →
      (getField s f).hung = false → partOfField s f = none →
      r % 8 = g → ∃ s' : State, exec (.walkStepDue g []) s = .next s' ∧ (getRow s' f r).e = (if 0 < w.e then w.e - 1 else 16) ∧
        (mrising s.sites = true → (getSite s' ⟨f, r, if 0 < w.e then w.e - 1 else 16⟩).zeroLeft = 12288) ∧
        (getRow s' f r).visit = true ∧ (getRow s' f r).due = (w.due ++ [gtcOf s f]).drop 1 ∧
        (getRow s' f r).steps = w.steps + 1) ∧
    (dueRows s p = [(f, r)] → (getPart s p).st = .running → (getPart s p).resetting = none →
      ((getPart s p).arrived ≠ [] → (∀ t ∈ partTiles s (getPart s p), t.key ∈ (getPart s p).arrived) →
        ∃ s' : State, exec (.rotationWindow p []) s = .next s' ∧ (getRow s' f r).e = (if 0 < w.e then w.e - 1 else 16) ∧
          (getRow s' f r).visit = true ∧ total s' 0x5000 1 = total s 0x5000 1 + 1) ∧
      (∀ q, w.due.head? = some q → q + walkDeadline s ≤ gtcOf s f →
        ∃ s' : State, exec (.forcedRotationWindow p []) s = .next s' ∧ (getRow s' f r).e = (if 0 < w.e then w.e - 1 else 16) ∧
          total s' 0x5000 1 = total s 0x5000 1 + 1 ∧ total s' 0x5000 5 = total s 0x5000 5 + 1)) ∧
    (s.boot.st = .ready → w.visit = true → (getBlock s (SiteId.block ⟨f, r, w.e⟩)).stopped = false → w.waiting = [] → w.due = [] → mrising s.rows = true →
      ∃ s' : State, exec (.visitComplete f r .pass []) s = .next s' ∧ (getRow s' f r).visit = false ∧ (getRow s' f r).e = w.e ∧
        total s' 0x5000 2 = total s 0x5000 2 + 1 ∧ s'.tiles = s.tiles)) ∧
  (∀ (s : State) (t : XY) (T : Tile), s.ok = true → T = getTile s t →
    (∀ row w sc, padRuns s t = true → row < 49152 → mfind T.wback row = some sc → mrising T.ecc = true → mrising T.wback = true →
      ∃ s' : State, exec (.correctionWriteback t row) s = .next s' ∧ OnlyTile t s s' ∧ (getTile s' t).mem = T.mem ∧
        mfind (getTile s' t).wback row = none ∧
        mfind (getTile s' t).ecc w = if w / 8 = row ∧ mfind T.ecc w = some .single then none else mfind T.ecc w) ∧
    (∀ (a : SiteId) (bank n : Nat), a.valid = true → bank < 24 → fieldAlive s a.field = true → siteClock s a = true →
      (getRow s a.field a.row).kind ≠ .broken → n = mget 0 (getSite s a).scrub bank → tileAt s a = none → mrising s.sites = true →
      ((getSite s a).zeroLeft ≠ 0 → exec (.scrubRead a bank .single) s = .next s) ∧
      ((getSite s a).zeroLeft = 0 → (∀ w, w / 8 = 24 * (n % 2048) + bank → w ∉ (getSite s a).bad) →
      ∃ s' : State, exec (.scrubRead a bank .single) s = .next s' ∧ mget 0 (getSite s' a).scrub bank = n + 1 ∧
        (getSite s' a).ce = satAdd32 (getSite s a).ce 1 ∧ (getSite s' a).bad = (getSite s a).bad ∧ s'.tiles = s.tiles)) ∧
    (∀ (a : SiteId) (bank n : Nat), a.valid = true → bank < 24 → fieldAlive s a.field = true → siteClock s a = true →
      (getRow s a.field a.row).kind ≠ .broken → tileAt s a = some t → n = mget 0 (getSite s a).scrub bank → T.ecc = [] →
      T.wback = [] → T.zeroising = false → mrising s.sites = true →
      (∃ s' : State, exec (.scrubRead a bank .none) s = .next s' ∧ mget 0 (getSite s' a).scrub bank = n + 1 ∧
        (getSite s' a).ce = (getSite s a).ce ∧ (getTile s' t).mem = T.mem) ∧
      (∃ s' : State, exec (.scrubRead a bank .single) s = .next s' ∧ mget 0 (getSite s' a).scrub bank = n + 1 ∧
        (getSite s' a).ce = satAdd32 (getSite s a).ce 1 ∧ (getTile s' t).event.getLsbD evEccCe = true ∧
        mfind (getTile s' t).ecc (8 * (24 * (n % 2048) + bank)) = some .single ∧
        mfind (getTile s' t).wback (24 * (n % 2048) + bank) = some true ∧ (getTile s' t).mem = T.mem)) ∧
    (T.zeroising = true → zeroClock s t = true → Calm T → T.su.cwait = [] → s.aceel.waiting = [] →
      Leaves (.zeroiseDone t) s t { T.addAct 2 12288 with zeroising := false }))

/-! ### The control block and the scratchpad's events -/

/-- Writes of the control block: RUN starts the core at the entry point of a valid active slot, and stops it at 0; MULTI_SLOT
changes only in a stopped, quiet tile and is otherwise refused with CTRL_REFUSED; TC_SLOTn of the active slot is ignored while
RUN is 1, and a slot whose mask overlaps that of another valid slot stays invalid (R57; CFG_REFUSED with it is log entry 127);
TC_EVENT clears the bits written 1; TC_SEND_STALL is at least 0x1000; a seed of zero becomes s3 = 1; the core may write five registers,
and the field controller every writable one (R61, R67 to R70, Tables 2.5, 2.12 and 9.9 to 9.12), TC_CTRL, whose writes are a command of
their own in the table, by that command (log entry 13); a write of any other register changes nothing.
FCLK carries the writes also where CCLK is stopped (R58), and the record of an event waits then for CCLK (R368, log entry 137). -/
def Obligations.ControlBlockWrites : Prop :=
  ∀ (s : State) (t : XY) (T : Tile) (x : Word64), s.ok = true → T = getTile s t → tileReached s t = true →
    (T.run = false → T.st ≠ .fault → T.activeSlot.valid = true → T.activeSlot.auto = false → x.getLsbD 0 = true →
      x.getLsbD 1 = T.multi →
      Leaves (.tcCtrlWrite t x) s t { T with run := true, pc := T.activeSlot.entry.setWidth 13, st := .run }) ∧
    (T.run = true → T.st ≠ .fault → x.getLsbD 0 = false → x.getLsbD 1 = T.multi →
      Leaves (.tcCtrlWrite t x) s t { T with run := false, stepD := none, qu := { T.qu with held := none }, st := .stopped }) ∧
    (T.run = false → T.quiet = true → x.getLsbD 1 ≠ T.multi →
      (x.getLsbD 0 = false → Leaves (.tcCtrlWrite t x) s t { T with multi := x.getLsbD 1 }) ∧
      (x.getLsbD 0 = true → T.st ≠ .fault → T.activeSlot.valid = true → T.activeSlot.auto = false →
        Leaves (.tcCtrlWrite t x) s t
          { T with multi := x.getLsbD 1, run := true, pc := T.activeSlot.entry.setWidth 13, st := .run })) ∧
    (∀ U : Tile, T.run = true ∨ T.quiet = false → x.getLsbD 1 ≠ T.multi → T.event.getLsbD evCtrlRefused = false → U = { T with
        event := T.event ||| (1#14 <<< evCtrlRefused)
        raised := if T.eventEn.getLsbD evCtrlRefused then T.raised ++ [evCtrlRefused] else T.raised } →
      (clockOn s t = true → Leaves (.tcCtrlWrite t x) s t (U.record (gtcOf s t.field) 3 evCtrlRefused)) ∧
      (clockOn s t = false → Leaves (.tcCtrlWrite t x) s t { U with
        traceHeld := T.traceHeld ++ [traceWord (gtcOf s t.field) 3 T.active.toNat evCtrlRefused] })) ∧
    (∀ n : SlotNum, (n = T.active ∧ T.run = true → exec (.tcSlotWrite t n x) s = .next s) ∧
      (n ≠ T.active ∨ T.run = false → T.activeSlot.ovNext = false → mrising T.slots = true →
        (x.getLsbD 48 = false ∨ maskOverlaps T n (x.extractLsb' 16 16) = false →
          Leaves (.tcSlotWrite t n x) s t (T.setSlot n { T.getSlot n with
            entry := x.extractLsb' 0 12, qmask := x.extractLsb' 16 16, tag := x.extractLsb' 32 16
            valid := x.getLsbD 48, wide := x.getLsbD 49 })) ∧
        (x.getLsbD 48 = true → maskOverlaps T n (x.extractLsb' 16 16) = true →
          ∃ s' : State, exec (.tcSlotWrite t n x) s = .next s' ∧ OnlyTile t s s' ∧ ((getTile s' t).getSlot n).valid = false ∧
            (getTile s' t).event.getLsbD evCfgRefused = true))) ∧
    Leaves (.tcEventWrite t x) s t { T with event := T.event &&& ~~~(x.setWidth 14) } ∧
    Leaves (.tcRngSeedHiWrite t x) s t { T with
      s0 := T.seedLo.setWidth 32, s1 := (T.seedLo >>> 32).setWidth 32, s2 := x.setWidth 32
      s3 := if T.seedLo = 0 ∧ x = 0 then 1 else (x >>> 32).setWidth 32 } ∧
    Leaves (.tcSendStallWrite t x) s t { T with
      sendStall := if (x.setWidth 32 : Word32).toNat < 0x1000 then 0x1000 else x.setWidth 32 } ∧
    (∀ (own : Bool) (off : Half), off.toNat % 8 = 0 →
      (off.toNat = 0x40 → Leaves (.registerWrite t own off x) s t { T with event := T.event &&& ~~~(x.setWidth 14) }) ∧
      (off.toNat = 0x48 → Leaves (.registerWrite t own off x) s t { T with eventEn := x.setWidth 14 ||| 0xC8F }) ∧
      (off.toNat = 0x50 → Leaves (.registerWrite t own off x) s t { T with seedLo := x }) ∧
      (off.toNat = 0x58 → Leaves (.registerWrite t own off x) s t { T with
        s0 := T.seedLo.setWidth 32, s1 := (T.seedLo >>> 32).setWidth 32, s2 := x.setWidth 32
        s3 := if T.seedLo = 0 ∧ x = 0 then 1 else (x >>> 32).setWidth 32 }) ∧
      (off.toNat = 0x60 → Leaves (.registerWrite t own off x) s t { T with
        sendStall := if (x.setWidth 32 : Word32).toNat < 0x1000 then 0x1000 else x.setWidth 32 }) ∧
      (off.toNat < 0x40 ∨ 0x60 < off.toNat → Leaves (.registerWrite t true off x) s t T) ∧
      (∀ n : SlotNum, off.toNat = 0x20 + 8 * n.toNat →
        exec (.registerWrite t false off x) s = exec (.tcSlotWrite t n x) s) ∧
      (∀ q < 16, off.toNat = 0x800 + 32 * q →
        Leaves (.registerWrite t false off x) s t (T.setQ q { T.getQ q with base := x.extractLsb' 6 16 })) ∧
      (∀ q < 16, off.toNat = 0x808 + 32 * q →
        Leaves (.registerWrite t false off x) s t
          (T.setQ q { T.getQ q with log2 := x.extractLsb' 0 5, maxmsg := x.extractLsb' 6 21 })) ∧
      (((off.toNat < 0x20 ∧ off.toNat ≠ 0x10) ∨ (0x60 < off.toNat ∧ off.toNat < 0x800) ∨ 0xA00 ≤ off.toNat ∨
          (0x800 ≤ off.toNat ∧ 16 ≤ off.toNat % 32)) → Leaves (.registerWrite t false off x) s t T))

/-! ### The mesh -/

/-- A train whose hop is free goes one hop along its leg in dimension order, x first: of a direct route toward DST, of a Valiant route
or a detour toward MID, its intermediate or waypoint, and from there toward DST (R247, R248, R249); the next buffer is one of VAL1, and
after MID VAL2, of a Valiant route, of VAL2, and after MID DET, of a detour, and of VAL2 of a direct route (Table 9.6). While the hop is
not free (its turn at the output has not come, the virtual channel carries another train, the next buffer has no room) its head stays
(R245, R246); at a fenced hop the router discards it and counts it (R251); a hop with a CRC error poisons it (R242).
A packet is a 16-byte header and up to 8,192 payload bytes in flits of 64 bytes, payload byte n at byte (n + 16) mod 64 of flit
⌊(n + 16) ÷ 64⌋, with zeros after the last; the header holds its fields at the places of Table 9.3 (R243, R244).
Responses at the requester: the data of a GLD reaches its register extended as U says, that of a GDMA.GET the scratchpad;
the last piece ends the transaction; an error gives a GLD the value 0 and stops the core (R85 to R87, R255). -/
def Obligations.TrainAndResponseResults : Prop :=
  (∀ (s : State) (pid vc : Nat) (k K : Pkt) (e b : XY) (past : Bool), mfind s.mesh.pkts pid = some k →
    (match k.route with
      | .valiant m => past = (k.passedMid || decide (k.at_ = m)) ∧ e = (if past then k.dst else m) ∧ vc = (if past then 1 else 0)
      | .detour m => past = (k.passedMid || decide (k.at_ = m)) ∧ e = (if past then k.dst else m) ∧ vc = (if past then 2 else 1)
      | _ => past = (k.passedMid || decide (k.at_ = k.dst)) ∧ e = k.dst ∧ vc = 1) →
    K = { k with passedMid := past } → k.at_ ≠ e →
    b = (if k.at_.x < e.x then ⟨k.at_.x + 1, k.at_.y⟩ else if e.x < k.at_.x then ⟨k.at_.x - 1, k.at_.y⟩
      else if k.at_.y < e.y then ⟨k.at_.x, k.at_.y + 1⟩ else ⟨k.at_.x, k.at_.y - 1⟩) →
    (hopFenced s k k.at_ b = false → hopFree s pid K = true → k.loc = none →
      (∃ s' k', exec (.trainForward pid {} false) s = .next s' ∧ mfind s'.mesh.pkts pid = some k' ∧ k'.at_ = b ∧
        k'.payload = k.payload ∧ k'.dst = k.dst ∧ k'.route = k.route ∧ k'.passedMid = (past || decide (b = e)) ∧
        k'.poison = k.poison ∧ (k.flits ≠ 0 → k'.head = some (Buf.mk k.at_ b vc 0)) ∧ s'.tiles = s.tiles ∧
        (∀ q, q ≠ pid → mfind s'.mesh.pkts q = mfind s.mesh.pkts q)) ∧
      (k.flits ≠ 0 → ∃ s' k', exec (.trainForward pid { crc := [0] } false) s = .next s' ∧ mfind s'.mesh.pkts pid = some k' ∧ k'.at_ = b ∧
        k'.poison = true ∧ total s' 0x2800 5 = total s 0x2800 5 + 1)) ∧
    (hopFenced s k k.at_ b = false → hopFree s pid K = false → ∃ s' k', exec (.trainForward pid {} false) s = .next s' ∧
      mfind s'.mesh.pkts pid = some k' ∧ k'.at_ = k.at_ ∧ k'.payload = k.payload ∧ s'.tiles = s.tiles) ∧
    (hopFenced s k k.at_ b = true → isFront s pid k = true → k.type = .msg → mrising s.mesh.pkts = true →
      ∃ s' : State, exec (.trainForward pid {} false) s = .next s' ∧ mfind s'.mesh.pkts pid = none ∧ s'.tiles = s.tiles ∧
        total s' 0x2800 6 = total s 0x2800 6 + 1)) ∧
  (∀ (s : State) (pid : Nat) (k : Pkt) (T : Tile) (x : Tx), s.ok = true → AtEnd s pid k → k.unit = .tile →
    takes s k.dst = true → T = getTile s k.dst → k.poison = false → mfind T.tx k.tag = some x → x.open_ = [k.piece] →
    x.failed = false → mrising T.tx = true → T.ecc = [] → k.parBad = none →
    T.fences.contains (.land k.tag) = false →
    (∀ (d : Reg) (u : Bool) (sz : Size2), k.type = .readRsp → x.kind = .gld d u sz → d ≠ 0 → k.payload.length = 2 ^ sz.toNat →
      ∃ s' : State, exec (.readRsp pid) s = .next s' ∧ mfind (getTile s' k.dst).tx k.tag = none ∧
        (getTile s' k.dst).getG d = (if u then BitVec.ofNat 64 (leNat k.payload)
          else BitVec.ofInt 64 (signedBytes (2 ^ sz.toNat) (leNat k.payload))) ∧
        (getTile s' k.dst).await = T.await.erase d ∧ (getTile s' k.dst).st = T.st ∧ (getTile s' k.dst).mem = T.mem) ∧
    (∀ loc, k.type = .readRsp → x.kind = .get loc → ∃ s' : State, exec (.readRsp pid) s = .next s' ∧
      mfind (getTile s' k.dst).tx k.tag = none ∧ (getTile s' k.dst).g = T.g ∧
      (getTile s' k.dst).mem = T.mem.store (loc + (k.addr - x.addr)) k.payload) ∧
    (k.type = .writeAck → ∃ s' : State, exec (.writeAck pid) s = .next s' ∧ mfind (getTile s' k.dst).tx k.tag = none ∧
      (getTile s' k.dst).g = T.g ∧ (getTile s' k.dst).mem = T.mem ∧ (getTile s' k.dst).st = T.st) ∧
    (k.type = .error → T.st = .run → T.run = true → ∃ s' : State, exec (.errorRsp pid) s = .next s' ∧ mfind (getTile s' k.dst).tx k.tag = none ∧
      (getTile s' k.dst).st = .fault ∧ (getTile s' k.dst).event.getLsbD evAddrFault = true ∧
      (getTile s' k.dst).mem = T.mem ∧ (∀ d u sz, x.kind = .gld d u sz → d ≠ 0 → (getTile s' k.dst).getG d = 0))) ∧
  (∀ (k : Pkt) (p : Nat), p < k.packets → (k.part_ p).length ≤ 8192 ∧ (∀ j, (k.flit p j).length = 64) ∧
    (k.flit p 0).take 16 = natBytes 16 (k.header p).toNat ∧
    (∀ n, n < (k.part_ p).length → (k.flit p ((n + 16) / 64)).getD ((n + 16) % 64) 0 = k.payload.getD (8192 * p + n) 0) ∧
    (∀ n, (k.part_ p).length ≤ n → (k.flit p ((n + 16) / 64)).getD ((n + 16) % 64) 0 = 0)) ∧
  (∀ (k : Pkt) (p : Nat), k.tag < 64 → k.ctx < 256 → k.src.inGrid = true → k.dst.inGrid = true → k.mid.inGrid = true →
    k.len ≤ 8192 → ∀ h, h = (k.header p).toNat →
    h % 16 = k.type.code ∧ h / 2 ^ 4 % 2 = 0 ∧ h / 2 ^ 5 % 2 = (if k.sys then 1 else 0) ∧
    h / 2 ^ 6 % 2 ^ 14 = 128 * k.dst.y + k.dst.x ∧ h / 2 ^ 20 % 2 ^ 14 = 128 * k.src.y + k.src.x ∧
    h / 2 ^ 34 % 2 ^ 14 = 128 * k.mid.y + k.mid.x ∧ h / 2 ^ 48 % 256 = k.ctx ∧ h / 2 ^ 56 % 64 = k.tag ∧
    h / 2 ^ 62 % 2 ^ 14 = (if k.type = .readReq then k.len else (k.part_ p).length) ∧ h / 2 ^ 76 = typeFields k)

/-- Requests at a tile: a READ_REQ with rights is answered with the bytes, a WRITE with rights stores its payload and is
acknowledged, and where a byte's parity is wrong at the array its word is poisoned, PARITY is set and the step is tainted (R214,
R456); without rights, or where the bytes run to offset 0x30_0000 or above, the answer is an error and nothing changes
in the scratchpad (R219, R220, R223). The status 0x03 of a refusal for rights is the model's (log entry 14), and so is that a
piece with one undecoded byte is refused whole (log entry 111). -/
def Obligations.TileServesRequests : Prop :=
  ∀ (s : State) (pid : Nat) (k : Pkt) (T : Tile) (a : Nat), s.ok = true → AtEnd s pid k → k.unit = .tile →
    takes s k.dst = true → T = getTile s k.dst → a = k.addr % 2 ^ 22 → k.poison = false → T.ecc = [] → k.remote = none →
    k.loc = none → (k.type = .readReq → mayReach s k = true → a + k.len ≤ 0x300000 → ∃ s' : State, exec (.readReq pid) s = .next s' ∧
      Responds s s' k .readRsp 0 (T.mem.bytes a k.len) ∧ mfind s'.mesh.pkts pid = none ∧
      (getTile s' k.dst).mem = T.mem ∧ (getTile s' k.dst).g = T.g ∧ (getTile s' k.dst).v = T.v) ∧
    (k.type = .readReq → mayReach s k = true → 0x300000 < a + k.len → ∃ s' b, exec (.readReq pid) s = .next s' ∧
      Responds s s' k .error b [] ∧ (getTile s' k.dst).mem = T.mem) ∧
    (k.type = .readReq → mayReach s k = false → ∃ s' : State, exec (.readReq pid) s = .next s' ∧ Responds s s' k .error 3 [] ∧
      (getTile s' k.dst).mem = T.mem) ∧
    (k.type = .write → mayReach s k = true → a + k.payload.length ≤ 0x300000 → k.parBad = none → ∃ s' : State, exec (.writeReq pid) s = .next s' ∧
      Responds s s' k .writeAck 0 [] ∧
      mfind s'.mesh.pkts pid = none ∧ (getTile s' k.dst).mem = T.mem.store a k.payload ∧ (getTile s' k.dst).g = T.g ∧
      (getTile s' k.dst).v = T.v ∧ (∀ u : XY, u.inGrid = true → u ≠ k.dst → getTile s' u = getTile s u)) ∧
    (∀ i, k.type = .write → mayReach s k = true → a + k.payload.length ≤ 0x300000 → k.parBad = some i → i < k.payload.length →
      NoRequests s → mrising s.parts = true → ∃ s' : State, exec (.writeReq pid) s = .next s' ∧
      (getTile s' k.dst).mem = T.mem.store a k.payload ∧ mfind (getTile s' k.dst).ecc ((a + i) / 8) = some .bad ∧
      (getTile s' k.dst).event.getLsbD evParity = true ∧ (∀ p, partOf s k.dst = some p → (getPart s' p).taint = true)) ∧
    (k.type = .write → mayReach s k = true → 0x300000 < a + k.payload.length → ∃ s' b, exec (.writeReq pid) s = .next s' ∧
      Responds s s' k .error b [] ∧ (getTile s' k.dst).mem = T.mem) ∧
    (k.type = .write → mayReach s k = false → ∃ s' : State, exec (.writeReq pid) s = .next s' ∧ Responds s s' k .error 3 [] ∧
      (getTile s' k.dst).mem = T.mem)

/-- A message that its queue accepts lands as one record of rec(L) bytes at WP: header, payload, zeros; WP passes it. Where the record
does not fit before the ring's end, a pad fills the rest of the ring, a header of LENGTH t - 16 with FLAGS.PAD, and the record lands at
the ring's start; WP passes both and 0x2800:02 counts the pad. One that the queue does not accept, for want of a ring, of MAXMSG or of
room for the pad and the record, is discarded whole and counted in 0x2800:06 (R258 to R260). -/
def Obligations.MessageLands : Prop :=
  ∀ (s : State) (pid : Nat) (k : Pkt) (T : Tile) (Q : Queue) (n p t B : Nat) (l : List Byte), s.ok = true → AtEnd s pid k →
    k.unit = .tile → k.type = .msg → takes s k.dst = true → T = getTile s k.dst → Q = T.getQ k.queue.toNat → T.ecc = [] →
    k.poison = false → k.remote = none → k.parBad = none → n = 64 * ((k.len + 16 + 63) / 64) → k.payload.length = k.len →
    p = Q.wp.toNat % 2 ^ Q.log2.toNat → t = 2 ^ Q.log2.toNat - p → B = 64 * Q.base.toNat →
    l = natBytes 4 k.len ++ natBytes 2 (128 * k.src.y + k.src.x) ++ [BitVec.ofNat 8 k.ch.toNat, if k.pin then 2 else 0] ++
      natBytes 2 k.seq.toNat ++ zeros 6 ++ k.payload ++ zeros (n - 16 - k.len) →
    (Q.log2 ≠ 0 → k.len ≤ Q.maxmsg.toNat → n ≤ t → n + (Q.wp - Q.rp).toNat ≤ 2 ^ Q.log2.toNat →
      ∃ s' : State, exec (.msg pid) s = .next s' ∧ mfind s'.mesh.pkts pid = none ∧
        (getTile s' k.dst).mem = T.mem.store (B + p) l ∧
        ((getTile s' k.dst).getQ k.queue.toNat).wp = Q.wp + BitVec.ofNat 32 n ∧
        ((getTile s' k.dst).getQ k.queue.toNat).rp = Q.rp ∧ (getTile s' k.dst).g = T.g ∧
        total s' 0x2800 1 = total s 0x2800 1 + 1) ∧
    (Q.log2 ≠ 0 → k.len ≤ Q.maxmsg.toNat → t < n → t + n + (Q.wp - Q.rp).toNat ≤ 2 ^ Q.log2.toNat →
      ∃ s' : State, exec (.msg pid) s = .next s' ∧ mfind s'.mesh.pkts pid = none ∧
        (getTile s' k.dst).mem = (T.mem.store (B + p) (natBytes 4 (t - 16) ++ zeros 3 ++ [1] ++ zeros 8)).store B l ∧
        ((getTile s' k.dst).getQ k.queue.toNat).wp = Q.wp + BitVec.ofNat 32 (t + n) ∧
        ((getTile s' k.dst).getQ k.queue.toNat).rp = Q.rp ∧ (getTile s' k.dst).g = T.g ∧
        total s' 0x2800 1 = total s 0x2800 1 + 1 ∧ total s' 0x2800 2 = total s 0x2800 2 + 1) ∧
    (Q.log2 = 0 ∨ Q.maxmsg.toNat < k.len ∨ 2 ^ Q.log2.toNat < (if n ≤ t then n else t + n) + (Q.wp - Q.rp).toNat →
      ∃ s' : State, exec (.msg pid) s = .next s' ∧ mfind s'.mesh.pkts pid = none ∧ s'.tiles = s.tiles ∧
        total s' 0x2800 6 = total s 0x2800 6 + 1)

/-- Windows and credit: an OPEN is taken where the queue has a ring, the window fits MAXMSG and the sum of the windows leaves
room for a record of MAXMSG, else refused with 0x05; its answer opens the channel with credit rec(W); an acknowledgement gives
credit back; CLOSE gives the window back, and its answer frees the channel (R262 to R264). An answer that bears another TAG than the
channel awaits comes after its timer and changes nothing (R252; the TAG is log entry 123). -/
def Obligations.ChannelProtocol : Prop :=
  ∀ (s : State) (pid : Nat) (k : Pkt) (T : Tile) (Q : Queue) (c : SendChan), s.ok = true → AtEnd s pid k → k.unit = .tile →
    takes s k.dst = true → T = getTile s k.dst → Q = T.getQ k.queue.toNat → c = T.getChan k.ch → k.poison = false →
    k.remote = none → mrising T.qu.chans = true → mrising T.qu.qs = true →
    (k.type = .opn → Q.log2 ≠ 0 ∧ k.win ≤ Q.maxmsg.toNat ∧
      Q.winsum.toNat + recBytes k.win + recBytes Q.maxmsg.toNat ≤ 2 ^ Q.log2.toNat →
      ∃ s' : State, exec (.openReq pid) s = .next s' ∧ Responds s s' k .openRsp 0 [] ∧
        (getTile s' k.dst).getQ k.queue.toNat = { Q with winsum := Q.winsum + BitVec.ofNat 21 (recBytes k.win) } ∧
        (getTile s' k.dst).mem = T.mem ∧ (getTile s' k.dst).g = T.g) ∧
    (k.type = .opn → ¬ (Q.log2 ≠ 0 ∧ k.win ≤ Q.maxmsg.toNat ∧
      Q.winsum.toNat + recBytes k.win + recBytes Q.maxmsg.toNat ≤ 2 ^ Q.log2.toNat) →
      ∃ s' : State, exec (.openReq pid) s = .next s' ∧ Responds s s' k .openRsp 5 [] ∧
        (getTile s' k.dst).getQ k.queue.toNat = Q ∧ total s' 0x2800 4 = total s 0x2800 4 + 1) ∧
    (k.type = .openRsp → c.st = .opening → k.tag = c.tag →
      (k.status = 0 → ∃ s' : State, exec (.openRsp pid) s = .next s' ∧
        (getTile s' k.dst).getChan k.ch = { c with st := .opened, credit := recBytes c.win } ∧
        (c.d ≠ 0 → (getTile s' k.dst).getG c.d = 0) ∧ (getTile s' k.dst).mem = T.mem) ∧
      (k.status ≠ 0 → ∃ s' : State, exec (.openRsp pid) s = .next s' ∧ (getTile s' k.dst).getChan k.ch = {} ∧
        (c.d ≠ 0 → (getTile s' k.dst).getG c.d = k.status.setWidth 64))) ∧
    (k.type = .msgAck → c.st = .opened ∨ c.st = .closing → ∃ s' : State, exec (.msgAck pid) s = .next s' ∧
      (getTile s' k.dst).getChan k.ch = { c with credit := c.credit + k.win } ∧ (getTile s' k.dst).g = T.g ∧
      (getTile s' k.dst).mem = T.mem) ∧
    (k.type = .cls → ∃ s' : State, exec (.closeReq pid) s = .next s' ∧ Responds s s' k .closeRsp 0 [] ∧
      (getTile s' k.dst).getQ k.queue.toNat = { Q with winsum := Q.winsum - BitVec.ofNat 21 (recBytes k.win) }) ∧
    (k.type = .closeRsp → c.st = .closing → c.closeSent = true → k.tag = c.tag → ∃ s' : State, exec (.closeRsp pid) s = .next s' ∧
      (getTile s' k.dst).getChan k.ch = {} ∧ (c.d ≠ 0 → (getTile s' k.dst).getG c.d = k.status.setWidth 64)) ∧
    (k.tag ≠ c.tag → (k.type = .openRsp → ∃ s' : State, exec (.openRsp pid) s = .next s' ∧ getTile s' k.dst = T ∧
        mfind s'.mesh.pkts pid = none) ∧
      (k.type = .closeRsp → ∃ s' : State, exec (.closeRsp pid) s = .next s' ∧ getTile s' k.dst = T ∧
        mfind s'.mesh.pkts pid = none))

/-! ### DRAM -/

/-- A request at its complex: a read with rights returns the bytes; a write with rights within one line stores its payload,
and a whole line clears its poison; a read of a poisoned line is refused and counted in 0x4800:07; without rights nothing
changes; a write to a committed copy is held and not answered, and so is a request that finds its bank in refresh or its channel
in calibration; bytes read as written while their keys are held (R220, R230 to R232, R234, R463). The bytes of a GDMA.PUT whose complex
is attached at the issuing tile, so that it makes no hop, are read as the complex takes them (R483). A request for a channel that has
faulted, or whose complex is lost or unreachable, gets an error (R40, R235). Statuses 0x03 and 0x07 are log entry 14, and line by line is the
model's reading (log entry 60). -/
def Obligations.DramServesRequests : Prop :=
  ∀ (s : State) (pid : Nat) (k : Pkt) (a n : Nat) (B : List Byte), s.ok = true → AtEnd s pid k → k.unit = .dram →
    dramTakes s k = true → k.remote = none → s.dram.held = [] → a = k.addr - 0x010000000000 → k.poison = false →
    n = k.span → 0 < n → Brings s k B →
    (chanShut s (dramMap s k.addr).2 = true → mayReach s k = true → ∃ s' : State, exec (.dramRequest pid []) s = .next s' ∧
      Responds s s' k .error 7 [] ∧ s'.dram.mem = s.dram.mem ∧ (k.loc = none → s'.tiles = s.tiles)) ∧
    (chanShut s (dramMap s k.addr).2 = false → k.type = .readReq → mayReach s k = true → windowHolds s k = false →
      (∀ l, a / 64 ≤ l → l ≤ (a + n - 1) / 64 → linePoison s l = false ∧ keyHeld s l = true) →
      ∃ s' : State, exec (.dramRequest pid []) s = .next s' ∧ Responds s s' k .readRsp 0 (s.dram.mem.bytes a n) ∧
        s'.dram.mem = s.dram.mem ∧ s'.tiles = s.tiles ∧ mfind s'.mesh.pkts pid = none) ∧
    (chanShut s (dramMap s k.addr).2 = false → k.type = .readReq → mayReach s k = true → windowHolds s k = false → a / 64 = (a + n - 1) / 64 → linePoison s (a / 64) = true →
      ∃ s' : State, exec (.dramRequest pid []) s = .next s' ∧ Responds s s' k .error 7 [] ∧ s'.dram.mem = s.dram.mem ∧
        total s' 0x4800 7 = total s 0x4800 7 + 1) ∧
    (chanShut s (dramMap s k.addr).2 = false → k.type = .write → mayReach s k = true → windowHolds s k = false → writeHeld s a n = false → a / 64 = (a + n - 1) / 64 →
      (linePoison s (a / 64) = false ∨ n = 64) → mrising s.dram.poison = true →
      ∃ s' : State, exec (.dramRequest pid []) s = .next s' ∧ Responds s s' k .writeAck 0 [] ∧
        s'.dram.mem = s.dram.mem.store a B ∧ linePoison s' (a / 64) = false ∧ (k.loc = none → s'.tiles = s.tiles) ∧
        (∀ u : XY, u.inGrid = true → (getTile s' u).mem = (getTile s u).mem ∧ (getTile s' u).g = (getTile s u).g) ∧
        mfind s'.mesh.pkts pid = none) ∧
    (mayReach s k = false → ∃ s' : State, exec (.dramRequest pid []) s = .next s' ∧ Responds s s' k .error 3 [] ∧
      s'.dram.mem = s.dram.mem ∧ (k.loc = none → s'.tiles = s.tiles)) ∧
    (chanShut s (dramMap s k.addr).2 = false → mayReach s k = true → k.loc = none → windowHolds s k = true ∨ (k.type = .write ∧ writeHeld s a n = true) →
      exec (.dramRequest pid []) s =
        .next { putPkt s pid { k with trail := [], errs := [] } with dram := { s.dram with held := [pid] } })

/-- Windows, patrol, a channel's failure and the withdrawal of a commit (R232, R233, R235, R437, R463). Patrol pauses while the
arrays of the complex are in self-refresh (R40, R233). That the temperature and with it the multiplier come with the window is log
entry 63. -/
def Obligations.DramEventResults : Prop :=
  ∀ (s : State) (dc ch bank p : Nat) (temp : Byte) (act : Bool), dcPowered s dc = true → dcPowered s (ch / 8) = true →
    dc < 28 → ch < 224 →
    (s.dram.held = [] → ∃ s' : State, exec (.refreshWindow dc ⟨bank, temp⟩ act) s = .next s' ∧ (mrising s.dram.complexes = true →
      (getComplex s' dc).refreshing = (if act then some bank else none) ∧ (getComplex s' dc).temp = temp ∧
        (getComplex s' dc).refreshX = if 85 < temp.toNat then 2 else 1) ∧ s'.tiles = s.tiles ∧ s'.dram.mem = s.dram.mem) ∧
    (s.dram.held = [] → ∃ s' : State, exec (.calibrationWindow ch act) s = .next s' ∧ (mrising s.dram.channels = true →
      (getChannel s' ch).calibrating = act) ∧ s'.tiles = s.tiles ∧ s'.dram.mem = s.dram.mem ∧
      (act = false → 0 < (getComplex s (ch / 8)).extraCal → mrising s.dram.complexes = true →
        (getComplex s' (ch / 8)).extraCal = (getComplex s (ch / 8)).extraCal - 1)) ∧
    (dcRests s (ch / 8) = true → ∀ e, exec (.patrolScrub ch e) s = .next s) ∧
    (dcRests s (ch / 8) = false → s.boot.resetting = none → chanDead s ch = false → (getChannel s ch).calibrating = false →
      linePoison s (lineAt s ch (getChannel s ch).patrol) = false → mrising s.dram.channels = true →
      ∃ s' : State, exec (.patrolScrub ch .none) s = .next s' ∧ s'.dram.mem = s.dram.mem ∧ s'.tiles = s.tiles ∧
        ((getChannel s ch).patrol + 1 = 100663296 → (getChannel s' ch).patrol = 0 ∧
          (getChannel s' ch).passes = (getChannel s ch).passes + 1) ∧
        ((getChannel s ch).patrol + 1 ≠ 100663296 → (getChannel s' ch).patrol = (getChannel s ch).patrol + 1 ∧
          (getChannel s' ch).passes = (getChannel s ch).passes)) ∧
    ((getChannel s ch).faulted = false → s.boot.resetting = none → s.boot.st = .ready → s.boot.computeAt = [] →
      ∃ s' : State, exec (.channelFailure ch) s = .next s' ∧ (getChannel s' ch).faulted = true ∧ s'.boot.resetting = some .compute ∧
        s'.events.latched.getLsbD 0x06 = true) ∧
    (∀ pid k, (getPart s p).st ≠ .free → s.dram.held = [pid] → mfind s.mesh.pkts pid = some k → k.type = .write →
      heldBy (getPart s p) (k.addr - 0x010000000000) k.span = true →
      ∃ s' : State, exec (.commitWithdrawal p) s = .next s' ∧ (getPart s' p).c = none ∧
        (getPart s' p).withdrawals = satAdd32 (getPart s p).withdrawals 1)

/-! ### The host ports -/

/-- Host windows and BAR2: a request that a VALID region allows goes to the host at BASE plus its low 32 bits, a write being
acknowledged at once, in requests of up to 512 bytes with the region's attributes; one that none allows is answered with status
0x03 and counted; the host's data becomes a READ_RSP; a BAR2 request becomes a mesh request of its function, is refused where HC_APERTURE is not enabled, and
aborted at a degraded port, where a write, which completes with nothing, is dropped (R306, R310 to R312, R330). No request crosses a
multiple of its limit.
A read bears a 10-bit tag that no outstanding request of the port bears (R306). Status 0x03 is log entry 14, and the cut at multiples of
512 log entry 16. -/
def Obligations.HostWindowResults : Prop :=
  ∀ (s : State) (pid tag : Nat) (k : Pkt) (port : HPort), s.ok = true → s.boot.resetting = none →
    (∀ B, AtEnd s pid k → k.unit = .host port → k.remote = none → k.poison = false → Brings s k B →
      (windowRegion s port k = none → k.type = .readReq ∨ k.type = .write →
        ∃ s' : State, exec (.hostWindowRequest pid) s = .next s' ∧ Responds s s' k .error 3 [] ∧
          portCount s' port 6 = portCount s port 6 + 1 ∧ s'.out = s.out) ∧
      (∀ r, windowRegion s port k = some r → k.type = .write →
        ∃ s' : State, exec (.hostWindowRequest pid) s = .next s' ∧ Responds s s' k .writeAck 0 [] ∧
          s'.out = s.out ++ (busPieces 512 (B.length + 1) (r.base.toNat + k.addr % 2 ^ 32) B.length).map
            (fun x => .hostWrite ⟨port, r.fn⟩ x.1 ((B.drop (x.1 - (r.base.toNat + k.addr % 2 ^ 32))).take x.2)
              r.relaxed r.noSnoop)) ∧
      (∀ r, windowRegion s port k = some r → k.type = .readReq → (portOf s port).reads.length + (portOf s port).flushes.length < 512 →
        ∃ (s' : State) (g : Nat), exec (.hostWindowRequest pid) s = .next s' ∧ mfind s'.mesh.pkts pid = none ∧ g < 1024 ∧
          mfind (portOf s port).reads g = none ∧ mfind (portOf s port).flushes g = none ∧
          s'.out = s.out ++ [Output.hostReadReq ⟨port, r.fn⟩ (r.base.toNat + k.addr % 2 ^ 32) k.len g r.noSnoop] ∧
          mfind (portOf s' port).reads g = some ⟨k, r.fn⟩)) ∧
    (∀ r, mfind (portOf s port).reads tag = some r → mrising (portOf s port).reads = true → s.mesh.flushing = [] →
      r.req.remote = none → r.req.unit = .host port → routeOf s true r.req.dst r.req.src none ≠ .unreachable →
      (∀ e ∈ (portOf s port).qps, ∀ c ∈ e.2.cmds, c.run = none) →
      (∀ l : List Byte, l.length = r.req.len → ∃ s' : State, exec (.hostCompletion port tag (.data l)) s = .next s' ∧
        Responds s s' r.req .readRsp 0 l ∧ mfind (portOf s' port).reads tag = none) ∧
      (∃ s' : State, exec (.hostCompletion port tag .errorStatus) s = .next s' ∧ Responds s s' r.req .error 3 [] ∧
        portCount s' port 6 = portCount s port 6 + 1 ∧ mfind (portOf s' port).reads tag = none)) ∧
    (∀ (f : Fn) (off n a p : Nat) (e : XY × Unit_) (src : XY), f.port = port → (portOf s port).linkUp = true →
      fnExists s f = true → 0 < n → off + n ≤ bar2Size f.fn → off % 4096 + n ≤ 4096 →
      a = (getFn s f).base.toNat * 2 ^ 30 + off →
      ((getFn s f).enable = false → ∃ s' : State, exec (.bar2Request f off n none) s = .next s' ∧
        s'.out = s.out ++ [Output.bar2Unsupported f] ∧ portCount s' port 4 = portCount s port 4 + 1 ∧ s'.mesh = s.mesh) ∧
      ((getFn s f).enable = true → bar2Part s f a = some p → degraded s port = true →
        ∃ s' : State, exec (.bar2Request f off n none) s = .next s' ∧ s'.out = s.out ++ [Output.bar2Abort f (portOf s port).nextBar2] ∧
          s'.mesh = s.mesh) ∧
      ((getFn s f).enable = true → bar2Part s f a = some p → degraded s port = false → endpoint s a = some e →
        hostTile s port off = some src →
        routeOf s false src e.1 none ≠ .unreachable → s.mesh.flushing = [] →
        ∃ s' q, exec (.bar2Request f off n none) s = .next s' ∧ mfind s'.mesh.pkts s.mesh.nextId = some q ∧
          q.type = .readReq ∧ q.addr = a ∧ q.len = n ∧ q.src = src ∧ q.dst = e.1 ∧ q.part = some p) ∧
      (∀ l : List Byte, l.length = n →
        ((getFn s f).enable = false → ∃ s' : State, exec (.bar2Request f off n (some l)) s = .next s' ∧
          portCount s' port 4 = portCount s port 4 + 1 ∧ s'.out = s.out ∧ s'.mesh = s.mesh) ∧
        ((getFn s f).enable = true → bar2Part s f a = some p → degraded s port = true →
          exec (.bar2Request f off n (some l)) s = .next s) ∧
        ((getFn s f).enable = true → bar2Part s f a = some p → degraded s port = false → endpoint s a = some e →
          hostTile s port off = some src → routeOf s false src e.1 none ≠ .unreachable → s.mesh.flushing = [] →
          ∃ s' q, exec (.bar2Request f off n (some l)) s = .next s' ∧ mfind s'.mesh.pkts s.mesh.nextId = some q ∧
            q.type = .write ∧ q.addr = a ∧ q.payload = l ∧ q.src = src ∧ q.dst = e.1 ∧ q.part = some p ∧ s'.out = s.out))) ∧
    (∀ m k a n : Nat, 0 < m → n < k → ((busPieces m k a n).map (·.2)).sum = n ∧
      (∀ x ∈ busPieces m k a n, 0 < x.2 ∧ x.1 % m + x.2 ≤ m))

/-- The functions of a port: HC_APERTURE, the number of VFs, a function reset, PERST# and its release (R308, R327, R347,
Table 12.5); the link trains at a generation up to the highest of 0x6802 and at ×16 or ×8 (R306), of which the host and the lanes choose
(log entry 16).
Queue pairs: the SQ tail doorbell makes the block fetch the new commands in order, by reads of SQ_BASE + 64 × head while fewer than 512
are outstanding; the CQ head doorbell frees slots; a
completion is written at the CQ tail with its phase bit, and the vector follows where it is not masked; a doorbell of another function's pair is ignored
and counted (R319 to R321, Table 12.10). The attributes of a completion's write are log entry 16, the count of free CQ slots log
entry 66. -/
def Obligations.PortAndQueuePairResults : Prop :=
  (∀ (s : State) (f : Fn) (x : Word64) (n : Nat), s.ok = true → mrising (portOf s f.port).fns = true →
    ((portOf s f.port).linkUp = true → fnExists s f = true →
      (∃ s' : State, exec (.hcAperture f x) s = .next s' ∧ (getFn s' f).base = x.extractLsb' 30 22 ∧
        (getFn s' f).enable = x.getLsbD 0 ∧ s'.tiles = s.tiles) ∧
      (∃ s' : State, exec (.functionReset f) s = .next s' ∧ getFn s' f = {} ∧ s'.tiles = s.tiles ∧
        (∀ x ∈ s'.aceel.subs, x.ep ≠ .mailbox f))) ∧
    ((portOf s f.port).linkUp = true → n ≤ 31 →
      ∃ s' : State, exec (.vfEnable f.port n) s = .next s' ∧ (portOf s' f.port).vfs = n ∧ s'.tiles = s.tiles) ∧
    ((portOf s f.port).linkUp = true → ∃ s' : State, exec (.perst f.port) s = .next s' ∧ (portOf s' f.port).linkUp = false ∧
      (portOf s' f.port).qps = [] ∧ (portOf s' f.port).regions = [] ∧ (portOf s' f.port).vfs = 0 ∧
      portCount s' f.port 7 = portCount s f.port 7 + 1) ∧
    (s.pins.pwrGood = true → s.boot.silent = false → ∃ s' : State, exec (.perstRelease f.port) s = .next s' ∧
      (portOf s' f.port).linkUp = true ∧ ((portOf s' f.port).width = 16 ∨ (portOf s' f.port).width = 8) ∧
      (∀ hi, hi = liveNat s 0x6802 (if f.port = .a then 1 else 2) 6 → 4 ≤ hi →
        4 ≤ (portOf s' f.port).gen ∧ (portOf s' f.port).gen ≤ hi))) ∧
  (∀ (s : State) (port : HPort) (qp : Nat) (q : QPair) (f : Fn), getPair s port qp = some q → f = ⟨port, q.fn⟩ →
    (portOf s port).linkUp = true → fnExists s f = true →
    (∀ (tail : Nat) (b : List Byte), q.cmds = [] → q.posted = [] → q.done = [] → b.length = 64 → q.sqTail < 2 ^ q.sqLog2 →
      tail = (q.sqTail + 1) % 2 ^ q.sqLog2 → 0 < q.sqLog2 → 1 ≤ (byteAt b 0).toNat ∧ (byteAt b 0).toNat ≤ 6 →
      ((portOf s port).reads.length + (portOf s port).flushes.length < 512 → q.sqHead < 2 ^ q.sqLog2 →
        ∃ (s' : State) (g : Nat), exec (.sqTailDoorbell f qp tail [b]) s = .next s' ∧ g < 1024 ∧
          s'.out = s.out ++ [Output.hostReadReq f ((q.sqBase.toNat + 64 * q.sqHead) % 2 ^ 64) 64 g false] ∧ getPair s' port qp =
            some { q with sqTail := tail, sqHead := (q.sqHead + 1) % 2 ^ q.sqLog2, cmds := [⟨(portOf s port).nextCmd, b, false, none, []⟩] }) ∧
      (512 ≤ (portOf s port).reads.length + (portOf s port).flushes.length →
        ∃ s' : State, exec (.sqTailDoorbell f qp tail [b]) s = .next s' ∧ s'.out = s.out ∧ getPair s' port qp =
          some { q with sqTail := tail, posted := [b] })) ∧
    (∀ head, q.cmds = [] → q.posted = [] → head < 2 ^ q.cqLog2 →
      ∃ s' : State, exec (.cqHeadDoorbell f qp head) s = .next s' ∧ getPair s' port qp =
        some { q with cqHead := min q.cqTail (q.cqHead + (head + 2 ^ q.cqLog2 - q.cqHead % 2 ^ q.cqLog2) % 2 ^ q.cqLog2) }) ∧
    (∀ g : Fn, g.port = port → g.fn ≠ q.fn → fnExists s g = true → ∀ n l,
      ∃ s' : State, exec (.sqTailDoorbell g qp n l) s = .next s' ∧ portCount s' port 5 = portCount s port 5 + 1 ∧
        getPair s' port qp = some q) ∧
    (∀ c r, q.done = c :: r → q.cmds = [] → q.posted = [] → q.cqTail - q.cqHead < 2 ^ q.cqLog2 → q.cqBase.toNat % 16 = 0 →
      ∃ s' : State, exec (.completionEntry port qp) s = .next s' ∧
        s'.out = s.out ++ [Output.hostWrite f (q.cqBase.toNat + 16 * (q.cqTail % 2 ^ q.cqLog2))
          (natBytes 2 c.cid ++ natBytes 2 q.sqHead ++
            [BitVec.ofNat 8 qp, c.status, BitVec.ofNat 8 (1 - q.cqTail / 2 ^ q.cqLog2 % 2), 0] ++ natBytes 8 c.result.toNat)
          false false] ∧
        getPair s' port qp = some { q with done := r, cqTail := q.cqTail + 1, pendIrq := q.pendIrq || q.irq }) ∧
    (q.pendIrq = true → q.lastIrq = none → (mget {} (getFn s f).msix q.vector).masked = false →
      ∃ s' : State, exec (.completionInterrupt port qp) s = .next s' ∧ s'.out = s.out ++ [Output.msix f q.vector] ∧
        getPair s' port qp = some { q with pendIrq := false, lastIrq := some s.clk.gtc }))

/-- The host commands: LAUNCH starts every tile of the partition in the slot with ARG in g1 and makes it RUNNING, and completes
0x0B on a RUNNING partition; it ends with OK when every tile halts, and with the first faulting tile otherwise; COPY and
LOAD_CONFIG send their bytes as WRITEs, and complete 0x05 on operands out of range; STEP_COMMIT commits the current, untainted
step; FENCE completes when nothing earlier is outstanding; SIGNAL writes VALUE at ADDR, at once or when the step it names is
reached (R322 to R326, R464).
What ends a waiting host command: every tile of a launched partition halted, or one faulted; the step that a SIGNAL waits
for; the flushing read of a COPY to the host (R324 to R326, Table 12.9; what an erroneous flush returns is log entry 133). The attributes
of a command's own writes are log entry 16, and RANGE for undefined flags is log entry 67. -/
def Obligations.HostCommandResults : Prop :=
  (∀ (s : State) (port : HPort) (qp p : Nat) (q : QPair) (c : HostCmd) (P : Part), s.ok = true → CmdReady s port qp q c p →
    P = getPart s p →
    (c.opcode = 2 → P.st = .running → ∃ s' : State, exec (.launch port qp) s = .next s' ∧ Completed s' port qp c.cid 0x0B 0) ∧
    (∀ n : BitVec 2, c.opcode = 2 → P.st = .bound → c.at 16 1 = n.toNat → launchable s (partTiles s P) n = true →
      ∃ s' : State, exec (.launch port qp) s = .next s' ∧ (getPart s' p).st = .running ∧
        (getPart s' p).launch = some (port, qp, c.id) ∧ (getPart s' p).phase = 0 ∧
        (∀ t ∈ partTiles s P, (getTile s' t).run = true ∧ (getTile s' t).active = n ∧
          (getTile s' t).getG 1 = BitVec.ofNat 64 (c.at 24 8) ∧ (getTile s' t).mem = (getTile s t).mem)) ∧
    (∀ (host : List Byte) (a n : Nat) (e : XY × Unit_) (src : XY), c.opcode = 3 → n = c.at 32 4 → a = c.at 24 8 →
      c.at 36 1 = 1 → 0 < n → a % 4096 + n ≤ 4096 → n ≤ host.length → (portOf s port).reads.length + (portOf s port).flushes.length < 512 → endpoint s a = some e → hostTile s port a = some src →
      routeOf s false src e.1 none ≠ .unreachable → s.mesh.flushing = [] →
      ∃ (s' : State) (k : Pkt), exec (.copy port qp host) s = .next s' ∧ mfind s'.mesh.pkts s.mesh.nextId = some k ∧ k.type = .write ∧
        k.addr = a ∧ k.payload = host.take n ∧ k.dst = e.1) ∧
    (c.opcode = 3 → c.at 32 4 = 0 ∨ c.at 36 1 = 3 → ∀ host,
      ∃ s' : State, exec (.copy port qp host) s = .next s' ∧ Completed s' port qp c.cid 5 0) ∧
    (∀ (host : List Byte) (t src : XY) (n off : Nat), c.opcode = 1 → c.at 28 2 = 128 * t.y + t.x → t.inGrid = true →
      partOf s t = some p → tileLive s t = true → c.at 30 1 < 4 → (getTile s t).run = false → n = c.at 24 4 → off = c.at 32 4 →
      off % 32 = 0 → 0 < n → n ≤ 8192 → off + n ≤ 0x300000 → n ≤ host.length → (c.at 31 1).testBit 0 = false →
      (portOf s port).reads.length + (portOf s port).flushes.length < 512 →
      hostTile s port (t.y * 2 ^ 29 + t.x * 2 ^ 22 + off) = some src →
      routeOf s false src t none ≠ .unreachable → s.mesh.flushing = [] →
      ∃ (s' : State) (k : Pkt), exec (.loadConfig port qp host) s = .next s' ∧ mfind s'.mesh.pkts s.mesh.nextId = some k ∧ k.type = .write ∧
        k.addr = t.y * 2 ^ 29 + t.x * 2 ^ 22 + off ∧ k.payload = host.take n ∧ k.dst = t) ∧
    (c.opcode = 4 → s.dram.held = [] → P.taintN = false → faultyRegion P (P.n % 2) = none → c.at 16 8 = P.n →
      (∀ m, P.c = some m → m < P.n) →
      ∃ s' : State, exec (.stepCommit port qp) s = .next s' ∧ (getPart s' p).c = some P.n ∧ (getPart s' p).n = P.n ∧
        Completed s' port qp c.cid 0 P.n) ∧
    (c.opcode = 4 → c.at 16 8 ≠ P.n → ∃ s' : State, exec (.stepCommit port qp) s = .next s' ∧ Completed s' port qp c.cid 5 0 ∧
      (getPart s' p).c = P.c) ∧
    (c.opcode = 5 → c.at 16 1 = 0 → ∃ s' : State, exec (.sqFence port qp) s = .next s' ∧ Completed s' port qp c.cid 0 0) ∧
    (c.opcode = 6 → c.at 16 8 % 8 = 0 → c.at 40 1 = 1 → c.at 41 2 < vectorsOf q.fn →
      ∃ s' : State, exec (.signal port qp) s = .next s' ∧
        s'.out = s.out ++ [Output.hostWrite ⟨port, q.fn⟩ (c.at 16 8) (natBytes 8 (c.at 24 8)) false false] ∧
        Completed s' port qp c.cid 0 0) ∧
    (c.opcode = 6 → c.at 16 8 % 8 ≠ 0 ∨ vectorsOf q.fn ≤ c.at 41 2 →
      ∃ s' : State, exec (.signal port qp) s = .next s' ∧ Completed s' port qp c.cid 5 0 ∧ s'.out = s.out) ∧
    (c.opcode = 6 → c.at 16 8 % 8 = 0 → c.at 41 2 < vectorsOf q.fn → c.at 40 1 = 3 → P.n < c.at 32 8 → ∃ s' : State, exec (.signal port qp) s = .next s' ∧
      s'.out = s.out ∧ getPair s' port qp = some { q with cmds := [{ c with started := true }] })) ∧
  (∀ (s : State) (port : HPort) (qp p : Nat) (q : QPair) (c : HostCmd) (P : Part), s.ok = true → getPair s port qp = some q →
    q.cmds = [c] → c.started = true → c.run = none → q.posted = [] → q.done = [] → c.noCqe = false → P = getPart s p →
    P.resetting = none →
    (P.launch = some (port, qp, c.id) → P.st = .running → P.faulted = none →
      (∀ t ∈ partTiles s P, (getTile s t).st = .halt) →
      ∃ s' : State, exec (.launchComplete p) s = .next s' ∧ (getPart s' p).st = .bound ∧ (getPart s' p).launch = none ∧
        Completed s' port qp c.cid 0 0) ∧
    (∀ t : XY, P.launch = some (port, qp, c.id) → P.st = .running → P.faulted = some t →
      ∃ s' : State, exec (.launchComplete p) s = .next s' ∧ (getPart s' p).launch = none ∧ (getPart s' p).st = .running ∧
        Completed s' port qp c.cid 0 (1 + 256 * t.x + 65536 * t.y)) ∧
    (c.opcode = 6 → c.part s = some p → c.at 16 8 % 8 = 0 → c.at 40 1 = 3 → c.at 32 8 ≤ P.n →
      ∃ s' : State, exec (.signalOnStep port qp c.cid) s = .next s' ∧
        s'.out = s.out ++ [Output.hostWrite ⟨port, q.fn⟩ (c.at 16 8) (natBytes 8 (c.at 24 8)) false false] ∧
        Completed s' port qp c.cid 0 0)) ∧
  (∀ (s : State) (port : HPort) (qp tag : Nat) (q : QPair) (c : HostCmd) (r : CopyRun), s.ok = true →
    (portOf s port).qps = [(qp, q)] → q.cmds = [c] → c.started = true → c.opcode = 3 → c.run = some r → q.posted = [] →
    q.done = [] → c.noCqe = false → mfind (portOf s port).reads tag = none →
    mfind (portOf s port).flushes tag = some (qp, c.id) →
    (∀ l, ∃ s' : State, exec (.hostCompletion port tag (.data l)) s = .next s' ∧ Completed s' port qp c.cid 0 0) ∧
    (∃ s' : State, exec (.hostCompletion port tag .errorStatus) s = .next s' ∧ Completed s' port qp c.cid 3 0))

/-! ### The dictionary -/

/-- The dictionary makes and changes partitions and contexts: CREATE of whole, unowned fields makes an IDLE partition whose
tiles are zeroised and stopped, and is answered when the zeroises have ended, at once where CCLK runs in its tiles; with a field that is owned it answers 0x0B and changes no partition; RELEASE frees the partition
and its granules; MOVE, TRANSFER, BIND, UNBIND and the context reset do as R314 to R318 and R468 say; the answer to the last two
follows when the reset has ended (R344). -/
def Obligations.PartitionWriteResults : Prop :=
  ∀ (s : State) (w : WReq) (d : List Byte) (p : Nat) (P : Part) (port : HPort) (fs : List Nat), s.ok = true →
    mrising s.parts = true → p = num d 0 1 → P = getPart s p → fromVf w.ep = false →
    (Accepts s w 0x2002 0 d → namedPort w.ep (num d 6 1) = some port → p ≤ 48 → fnExists s ⟨port, num d 5 1⟩ = true →
      rectFields (num d 1 1) (num d 2 1) (num d 3 1) (num d 4 1) = some fs → (∀ f ∈ fs, fieldWhole s f = true) →
      ((P.st = .free → (∀ f ∈ fs, partOfField s f = none) →
        ∃ s' : State, exec (.createPartition w d) s = .next s' ∧
          ((∀ f ∈ fs, ClocksRun s f) → WriteReplied s' w 0x2002 0 d 0 ∧ s'.aceel.waiting = []) ∧
          ((∃ f ∈ fs, ∃ t ∈ fieldTiles f, isHole s t = false ∧ (getBlock s (siteOf s t).block).stopped = true) →
            s'.out = s.out ∧ s'.aceel.waiting.map (fun v => (v.req, v.data, v.part)) = [(wholeWrite w 0x2002 0 d, d, none)]) ∧
          (getPart s' p).st = .idle ∧
          (getPart s' p).port = port ∧ (getPart s' p).fn = num d 5 1 ∧ (getPart s' p).fx = num d 1 1 ∧
          (getPart s' p).fy = num d 2 1 ∧ (getPart s' p).w = num d 3 1 ∧ (getPart s' p).h = num d 4 1 ∧
          (getPart s' p).ctx = none ∧
          (∀ f ∈ fs, ∀ t ∈ fieldTiles f, (getTile s' t).mem = [] ∧ (getTile s' t).run = false ∧
            (getTile s' t).st = .stopped)) ∧
      (P.st ≠ .free ∨ (∃ f ∈ fs, partOfField s f ≠ none) →
        ∃ s' : State, exec (.createPartition w d) s = .next s' ∧ WriteReplied s' w 0x2002 0 d 0x0B ∧ s'.parts = s.parts ∧
          s'.tiles = s.tiles))) ∧
    (Accepts s w 0x2003 0 d → p ≤ 48 → writerHolds s w.ep p = true → P.st ≠ .free → P.ctx = none →
      (∀ f ∈ P.fields, fieldZeroed s f = true) →
      ∃ s' : State, exec (.releasePartition w d) s = .next s' ∧ WriteReplied s' w 0x2003 0 d 0 ∧ (getPart s' p).st = .free ∧
        (∀ e ∈ s'.dram.granules, e.2.owner ≠ p)) ∧
    (Accepts s w 0x2004 0 d → p ≤ 48 → writerHolds s w.ep p = true → P.st = .idle → hasCommand s p = false → P.ctx = none →
      P.change = none → rectFields (num d 1 1) (num d 2 1) (num d 3 1) (num d 4 1) = some fs →
      (∀ f ∈ fs, fieldWhole s f = true ∧ ClocksRun s f ∧ (partOfField s f = none ∨ partOfField s f = some p)) →
      ∃ s' : State, exec (.movePartition w d) s = .next s' ∧ WriteReplied s' w 0x2004 0 d 0 ∧ (getPart s' p).st = .idle ∧
        (getPart s' p).fx = num d 1 1 ∧ (getPart s' p).fy = num d 2 1 ∧ (getPart s' p).w = num d 3 1 ∧
        (getPart s' p).h = num d 4 1 ∧
        (∀ f ∈ fs, ∀ t ∈ fieldTiles f, (getTile s' t).mem = [] ∧ (getTile s' t).run = false)) ∧
    (Accepts s w 0x2005 0 d → namedPort w.ep (num d 6 1) = some port → p ≤ 48 → P.st ≠ .free → P.ctx = none →
      fnExists s ⟨port, num d 5 1⟩ = true →
      ∃ s' : State, exec (.transferPartition w d) s = .next s' ∧ WriteReplied s' w 0x2005 0 d 0 ∧ (getPart s' p).port = port ∧
        (getPart s' p).fn = num d 5 1 ∧ (getPart s' p).st = P.st ∧ s'.tiles = s.tiles) ∧
    (∀ q, q = num d 1 1 → Accepts s w 0x2010 0 d → writerHolds s w.ep q = true → mfind s.ctxs p = none →
      (getPart s q).st = .idle →
      ∃ s' : State, exec (.bindContext w d) s = .next s' ∧ WriteReplied s' w 0x2010 0 d 0 ∧ mfind s'.ctxs p = some q ∧
        (getPart s' q).ctx = some p ∧ (getPart s' q).st = .bound ∧ s'.tiles = s.tiles) ∧
    (∀ q, mfind s.ctxs p = some q → writerHolds s w.ep q = true → (getPart s q).resetting = none →
      s.boot.resetting = none →
      (Accepts s w 0x2011 0 d → ∃ s' : State, exec (.unbindContext w d) s = .next s' ∧
        s'.aceel.waiting = [⟨wholeWrite w 0x2011 0 d, d, some q, []⟩] ∧ ((getPart s' q).resetting.map (·.unbind)) = some true) ∧
      (Accepts s w 0x6000 1 d → ∃ s' : State, exec (.contextResetWrite w d) s = .next s' ∧
        s'.aceel.waiting = [⟨wholeWrite w 0x6000 1 d, d, some q, []⟩] ∧ ((getPart s' q).resetting.map (·.unbind)) = some false))

/-- Queue pairs, host-window regions, granules and the interleave mode (R229, R238, R311, R319). -/
def Obligations.PortMemoryWriteResults : Prop :=
  ∀ (s : State) (w : WReq) (d : List Byte), s.ok = true → hostFn w.ep = none →
    (∀ (port : HPort) (q : Nat), namedPort w.ep (num d 7 1) = some port → q = num d 0 1 → Accepts s w 0x6820 0 d →
      getPair s port q = none → 4 ≤ num d 2 1 → num d 2 1 ≤ 16 → 4 ≤ num d 3 1 → num d 3 1 ≤ 16 → num d 8 8 % 4096 = 0 →
      num d 16 8 % 4096 = 0 → fnExists s ⟨port, num d 1 1⟩ = true → num d 4 2 < vectorsOf (num d 1 1) →
      ∃ s' v, exec (.createQueuePair w d) s = .next s' ∧ WriteReplied s' w 0x6820 0 d 0 ∧ getPair s' port q = some v ∧
        v.fn = num d 1 1 ∧ v.sqLog2 = num d 2 1 ∧ v.cqLog2 = num d 3 1 ∧ v.vector = num d 4 2 ∧ v.sqHead = 0 ∧ v.sqTail = 0 ∧
        v.cqTail = 0 ∧ v.cmds = [] ∧ v.done = []) ∧
    (∀ (port : HPort) (q : Nat) (v : QPair), port = (if (num d 1 1).testBit 0 then .b else .a) → q = num d 0 1 →
      Accepts s w 0x6821 0 d → getPair s port q = some v → v.posted = [] → v.cmds = [] → mrising (portOf s port).qps = true →
      ((∀ x ∈ v.done, x.launch = true) →
        ∃ s' : State, exec (.deleteQueuePair w d) s = .next s' ∧ WriteReplied s' w 0x6821 0 d 0 ∧ getPair s' port q = none) ∧
      ((∃ x ∈ v.done, x.launch = false) →
        ∃ s' : State, exec (.deleteQueuePair w d) s = .next s' ∧ WriteReplied s' w 0x6821 0 d 6 ∧ getPair s' port q = some v)) ∧
    (∀ ix n, 0x6810 ≤ ix → ix ≤ 0x6813 → Accepts s w ix n d → num d 0 8 % 4096 = 0 → num d 0 8 + 2 ^ 32 ≤ 2 ^ 64 →
      num d 8 1 ≤ 31 → allZero d = false →
      ∃ s' r, exec (.hostWindowRegion w ix n d) s = .next s' ∧ WriteReplied s' w ix n d 0 ∧
        mfind (portOf s' (regionPort ix)).regions (regionOf ix n) = some r ∧ r.base = BitVec.ofNat 64 (num d 0 8) ∧
        r.fn = num d 8 1 ∧ r.valid = (num d 9 1).testBit 0 ∧ r.readOnly = (num d 9 1).testBit 1) ∧
    (∀ p, p = num d 4 1 → (getPart s p).st ≠ .free → 1 ≤ num d 2 2 → num d 0 2 + num d 2 2 ≤ 1343 →
      (Accepts s w 0x4803 0 d → (∀ g, num d 0 2 ≤ g → g < num d 0 2 + num d 2 2 → mfind s.dram.granules g = none) →
        ∃ s' : State, exec (.allocateGranules w d) s = .next s' ∧ WriteReplied s' w 0x4803 0 d 0 ∧
          (∀ g, num d 0 2 ≤ g → g < num d 0 2 + num d 2 2 →
            mfind s'.dram.granules g = some ⟨p, (num d 5 1).testBit 0⟩ ∧
            (∀ a, a / 2 ^ 30 = g → s'.dram.mem.byte a = 0))) ∧
      (Accepts s w 0x4804 0 d → anyRun s p = false → mrising s.dram.granules = true →
        (∀ g, num d 0 2 ≤ g → g < num d 0 2 + num d 2 2 → ∃ v, mfind s.dram.granules g = some v ∧ v.owner = p) →
        ∃ s' : State, exec (.releaseGranules w d) s = .next s' ∧ WriteReplied s' w 0x4804 0 d 0 ∧
          (∀ g, num d 0 2 ≤ g → g < num d 0 2 + num d 2 2 → mfind s'.dram.granules g = none) ∧
          s'.dram.mem = s.dram.mem)) ∧
    (Accepts s w 0x4801 0 d → num d 0 1 ≤ 1 → w.flashOk = true →
      (s.dram.granules = [] → ∃ s' : State, exec (.interleaveMode w d) s = .next s' ∧ WriteReplied s' w 0x4801 0 d 0 ∧
        s'.dram.loc = decide (num d 0 1 = 1) ∧ s'.dram.mem = s.dram.mem) ∧
      (s.dram.granules ≠ [] → ∃ s' : State, exec (.interleaveMode w d) s = .next s' ∧ WriteReplied s' w 0x4801 0 d 0x0B ∧
        s'.dram.loc = s.dram.loc))

/-- Settings of queues, slots, scale tables, regions, scale-out, tests, events and resets (R206, R257, R154, R171, R287, R305,
R360, R437, R444, R464, R468). ALERT_N is released when no class that the alert mask names stays latched.
A requested field test ends: the request leaves, and its record is the newest of 0x5021 (R437, Table 17.9), its time being that
of gtcAt (log entry 115). A requested site's record is its visit's: it ends here only where no visit can come, abandoned (log entry
162). RANGE and IN_USE stand in the order of log entry 134. -/
def Obligations.SettingWriteResults : Prop :=
  (∀ (s : State) (w : WReq) (d : List Byte) (p : Nat), s.ok = true → hostFn w.ep = none → (getPart s p).st ≠ .free →
    mrising s.parts = true →
    (∀ t : XY, t = ⟨num d 0 1, num d 1 1⟩ → t.inGrid = true → partOf s t = some p → isHole s t = false →
      ((getTile s t).getQ (num d 2 1)).winsum = 0 →
      ((getTile s t).getQ (num d 2 1)).wp = ((getTile s t).getQ (num d 2 1)).rp → Accepts s w 0x2810 0 d →
      12 ≤ num d 3 1 → num d 3 1 ≤ 20 → num d 4 4 % 64 = 0 → num d 4 4 + 2 ^ num d 3 1 ≤ 0x300000 → num d 8 4 ≠ 0 →
      recBytes (num d 8 4) ≤ 2 ^ (num d 3 1 - 1) →
      ∃ s' : State, exec (.queueSetup w d) s = .next s' ∧ WriteReplied s' w 0x2810 0 d 0 ∧
        64 * ((getTile s' t).getQ (num d 2 1)).base.toNat = num d 4 4 ∧
        ((getTile s' t).getQ (num d 2 1)).log2.toNat = num d 3 1 ∧
        ((getTile s' t).getQ (num d 2 1)).maxmsg.toNat = num d 8 4 ∧ ((getTile s' t).getQ (num d 2 1)).wp = 0 ∧
        ((getTile s' t).getQ (num d 2 1)).recs = [] ∧ (getTile s' t).mem = (getTile s t).mem) ∧
    (num d 0 1 ≤ 1 →
      (partBusy s p = false → Accepts s w 0x2401 (p + 1) d → ∃ s' : State, exec (.reconfigurationMode w (p + 1) d) s = .next s' ∧
        WriteReplied s' w 0x2401 (p + 1) d 0 ∧ (getPart s' p).cfg.reconf = byteAt d 0 ∧ s'.tiles = s.tiles) ∧
      (partBusy s p = false → Accepts s w 0x2402 (p + 1) d → ∃ s' : State, exec (.slotMode w (p + 1) d) s = .next s' ∧
        WriteReplied s' w 0x2402 (p + 1) d 0 ∧ (getPart s' p).cfg.slotMode = byteAt d 0 ∧
        (∀ t ∈ partTiles s (getPart s p), (getTile s' t).multi = decide (num d 0 1 = 1) ∧ (getTile s' t).su.used = [])) ∧
      (partBusy s p = true → Accepts s w 0x2402 (p + 1) d → ∃ s' : State, exec (.slotMode w (p + 1) d) s = .next s' ∧
        WriteReplied s' w 0x2402 (p + 1) d 0x0B ∧ s'.parts = s.parts ∧ s'.tiles = s.tiles)) ∧
    (∀ x : Word64, Accepts s w 0x7801 (p + 1) d → x = BitVec.ofNat 64 (num d 0 8) → (scTile x).inGrid = true →
      partOf s (scTile x) = some p → scOff x % 128 = 0 → scOff x + 128 * scCount x ≤ 0x300000 →
      ∃ s' : State, exec (.scaleTableDescriptor w (p + 1) d) s = .next s' ∧ WriteReplied s' w 0x7801 (p + 1) d 0 ∧
        (getPart s' p).cfg.scale = x ∧ s'.tiles = s.tiles) ∧
    (Accepts s w 0x7883 0 d → num d 0 1 = 1 → ∃ s' : State, exec (.clearHistograms w d) s = .next s' ∧
      WriteReplied s' w 0x7883 0 d 0 ∧ s'.hist = []) ∧
    (Accepts s w 0x6002 (p + 1) d → allZero d = true → s.dram.held = [] →
      ((getPart s p).st ≠ .running → ∃ s' : State, exec (.protectedRegions w (p + 1) d) s = .next s' ∧
        WriteReplied s' w 0x6002 (p + 1) d 0 ∧ (getPart s' p).regions = [] ∧ (getPart s' p).faults = [] ∧
        (getPart s' p).c = none) ∧
      ((getPart s p).st = .running → ∃ s' : State, exec (.protectedRegions w (p + 1) d) s = .next s' ∧
        WriteReplied s' w 0x6002 (p + 1) d 0x0B ∧ s'.parts = s.parts)) ∧
    (∀ ix n c, 0x7010 ≤ ix → ix ≤ 0x701F → c = connOf ix n → Accepts s w ix n d → (getConn s c).enabled = false →
      deviceId s ≠ 0xFFFF → num d 1 1 = p → fieldOf d 2 2 ≠ 0xFFFF → fieldOf d 2 2 ≠ deviceId s → fieldOf d 4 4 ≠ 0 →
      fieldOf d 32 4 ≤ 4096 → (byteAt d 0).getLsbD 0 = true → d.length = 64 →
      ∃ s' : State, exec (.connectionDescriptor w ix n d) s = .next s' ∧ WriteReplied s' w ix n d 0 ∧
        (getConn s' c).desc = d.take 40 ∧ (getConn s' c).st = .restarting ∧ (getConn s' c).nextPsn = 0) ∧
    (∀ ix n (a : Ap), ix = 0x7020 ∨ ix = 0x7021 → a = ⟨(num d 3 1).testBit 0, num d 0 2, num d 2 1, num d 4 8⟩ →
      Accepts s w ix n d → a.part = p → anyRun s p = false → a.valid = true → a.base % 4096 = 0 →
      (getConn s a.conn).enabled = true → (getConn s a.conn).part = p → allZero d = false →
      ∃ s' : State, exec (.aperture w ix n d) s = .next s' ∧ WriteReplied s' w ix n d 0 ∧ mfind s'.xdt.aps (apOf ix n) = some a) ∧
    (Accepts s w 0x4000 2 d → num d 0 1 = 0 → s.clk.goodA = true → s.clk.active = some .b → w.flashOk = true →
      ∃ s' : State, exec (.preferredReference w d) s = .next s' ∧ WriteReplied s' w 0x4000 2 d 0 ∧ s'.clk.active = some .a ∧
        total s' 0x4000 4 = total s 0x4000 4 + 1) ∧
    (∀ q : TestReq, q = ⟨num d 0 1, num d 1 1, num d 2 1, num d 3 1⟩ → Accepts s w 0x5020 0 d → s.tests.requests.length < 16 →
      (q.kind = 0 → q.a ≤ 48 → q.row ≤ 15 → q.pc ≤ 16 → fieldAlive s q.a = true → (getRow s q.a q.row).kind = .spare →
        (getSite s ⟨q.a, q.row, q.pc⟩).failed = none →
        ∃ s' : State, exec (.siteTest w d) s = .next s' ∧ WriteReplied s' w 0x5020 0 d 0 ∧
          s'.tests.requests = s.tests.requests ++ [q]) ∧
      (q.kind = 1 → q.a ≤ 48 → fieldAlive s q.a = true → partOfField s q.a = none →
        ∃ s' : State, exec (.fieldTest w d) s = .next s' ∧ WriteReplied s' w 0x5020 0 d 0 ∧
          s'.tests.requests = s.tests.requests ++ [q]) ∧
      (q.kind = 2 → q.a ≤ 27 → (getComplex s q.a).lost = false →
        ∃ s' : State, exec (.dramCalibrationRequest w d) s = .next s' ∧ WriteReplied s' w 0x5020 0 d 0 ∧
          s'.tests.requests = s.tests.requests ++ [q] ∧ (getComplex s' q.a).extraCal = (getComplex s q.a).extraCal + 8)) ∧
    (Accepts s w 0x5803 0 d → ∃ s' : State, exec (.clearLatchedClasses w d) s = .next s' ∧ WriteReplied s' w 0x5803 0 d 0 ∧
      s'.events.latched = s.events.latched &&& ~~~(BitVec.ofNat 64 (num d 0 8)) ∧
      (s'.pins.alertN = true ↔ s'.events.latched &&& BitVec.ofNat 64 (liveNat s 0x5804 0 0x7FFFFFE) = 0)) ∧
    (Accepts s w 0x6000 2 d → num d 0 1 = 1 → s.boot.resetting = none → s.boot.computeAt = [] →
      ∃ s' : State, exec (.computeResetWrite w d) s = .next s' ∧ WriteReplied s' w 0x6000 2 d 0 ∧
        s'.boot.resetting = some .compute ∧ s'.boot.st = .computeReset ∧ s'.mesh.pkts = []) ∧
    (Accepts s w 0x6000 3 d → num d 0 1 = 1 → s.boot.resetting = none →
      ∃ s' : State, exec (.fullResetWrite w d) s = .next s' ∧ s'.boot.resetting = some .full ∧ s'.boot.st = .fullPending ∧
        s'.mesh.pkts = [] ∧ s'.portA.linkUp = false ∧ s'.portB.linkUp = false)) ∧
  (∀ (s : State) (k : Nat) (q : TestReq) (o : Byte), s.tests.requests[k]? = some q → s.boot.st = .ready →
    (∀ res, (q.kind = 1 ∧ res ≠ .fail) ∨ (q.kind = 0 ∧ visitable s q = false ∧ res = .abandoned) →
      ∃ s' r, exec (.testResult k res o []) s = .next s' ∧ s'.tests.requests = s.tests.requests.eraseIdx k ∧
        s'.tests.results = (r :: s.tests.results).take 16 ∧ r = natBytes 8 (gtcAt s q.a) ++ [BitVec.ofNat 8 q.kind,
          BitVec.ofNat 8 q.a, BitVec.ofNat 8 q.row, BitVec.ofNat 8 q.pc, if res = .pass then 0 else 2, o, 0, 0] ∧
        s'.tiles = s.tiles) ∧
    (q.kind = 0 → visitable s q = true → ∀ res l, exec (.testResult k res o l) s = .next s))

/-! ### Security -/

/-- Owner slots, owner commands, images, the minimum SVN and the debug unlock: a valid slot closes direct writes with 0x09; a
signed command with the nonce in force takes effect and draws a new nonce; an image that is formed and trusted replaces the one
that did not boot; COMMIT raises the minimum to the running SVN; an unlock that is accepted clears the secrets, and its end
releases the partitions (R402 to R407, R414 to R418). -/
def Obligations.SecurityResults : Prop :=
  ∀ (s : State) (w : WReq) (d : List Byte), s.ok = true → w.flashOk = true →
    (∀ n, Accepts s w 0x8020 n d → anyValid s.sec.slots = true → ∃ s' : State, exec (.ownerKeySlot w n d) s = .next s' ∧
      WriteReplied s' w 0x8020 n d 9 ∧ s'.sec = s.sec) ∧
    (∀ n m, Accepts s w 0x8020 n d → anyValid s.sec.slots = false →
      m = mset (0, 0) s.sec.slots n (byteAt d 0, BitVec.ofNat 512 (num d 8 64)) → unsignable m = false →
      ∃ s' : State, exec (.ownerKeySlot w n d) s = .next s' ∧ WriteReplied s' w 0x8020 n d 0 ∧ s'.sec.slots = m) ∧
    (Accepts s w 0x8023 0 d → anyValid s.sec.slots = false → ∃ s' : State, exec (.debugPolicy w d) s = .next s' ∧
      WriteReplied s' w 0x8023 0 d 0 ∧ s'.sec.policy = byteAt d 0) ∧
    (Accepts s w 0x8021 0 d → s.boot.st = .ready → commandFormed d = true → commandSigned s d = true →
      unsignable (commandChange s d).sec.slots = false →
      (num d 0 1 = 1 → ∃ s' : State, exec (.setSlot w d) s = .next s' ∧ WriteReplied s' w 0x8021 0 d 0 ∧
        s'.sec.slots = mset (0, 0) s.sec.slots (num d 1 1) (byteAt (d.drop 36) 0, BitVec.ofNat 512 (fieldOf d 44 64)) ∧
        s'.sec.nonce = s.sec.nonce + 1) ∧
      (num d 0 1 = 2 → ∃ s' : State, exec (.clearSlot w d) s = .next s' ∧ WriteReplied s' w 0x8021 0 d 0 ∧
        s'.sec.slots = mset (0, 0) s.sec.slots (num d 1 1) (0, 0) ∧ s'.sec.nonce = s.sec.nonce + 1) ∧
      (num d 0 1 = 3 → ∃ s' : State, exec (.setDebugPolicy w d) s = .next s' ∧ WriteReplied s' w 0x8021 0 d 0 ∧
        s'.sec.policy = byteAt d 1 ∧ s'.sec.slots = s.sec.slots ∧ s'.sec.nonce = s.sec.nonce + 1)) ∧
    (Accepts s w 0x8021 0 d → s.boot.st = .ready → commandFormed d = true → commandSigned s d = false →
      ∃ s' : State, exec (.setSlot w d) s = .next s' ∧ WriteReplied s' w 0x8021 0 d 9 ∧ s'.sec.slots = s.sec.slots ∧
        s'.sec.policy = s.sec.policy ∧ s'.sec.nonce = s.sec.nonce + 1) ∧
    (Accepts s w 0x8011 0 d → num d 0 1 ≠ 0 →
      (minSvnOf s < s.sec.runSvn → ∃ s' : State, exec (.commitSvn w d) s = .next s' ∧ WriteReplied s' w 0x8011 0 d 0 ∧
        s'.sec.minSvn = s.sec.runSvn) ∧
      (s.sec.runSvn ≤ minSvnOf s → ∃ s' : State, exec (.commitSvn w d) s = .next s' ∧ WriteReplied s' w 0x8011 0 d 5 ∧
        s'.sec = s.sec)) ∧
    (∀ h : Req, h = ⟨w.ep, 4, 1, 0x8012, 0, 0, w.tag, d.length, 0, w.flashOk, {}⟩ → reaches s h d = true → discards h d = false →
      retryOf s h d = none → s.sec.unlocking = none → s.aceel.waiting = [] → (∃ i, judge s w.ep 0x8012 0 true (.write d) = .ok i) →
      imageFormed d = true → digestsOk d = true →
      (imageTrusted s d = true → s.sec.booted = 0 → ∃ s' : State, exec (.imageWrite w d) s = .next s' ∧
        s'.sec.imageB = some (num d 8 4, num d 12 4, num d 20 4) ∧ s'.sec.woadB = some (sectionOf d 4) ∧
        s'.sec.imageA = s.sec.imageA ∧ s'.sec.woadA = s.sec.woadA) ∧
      (imageTrusted s d = true → s.sec.booted ≠ 0 → ∃ s' : State, exec (.imageWrite w d) s = .next s' ∧
        s'.sec.imageA = some (num d 8 4, num d 12 4, num d 20 4) ∧ s'.sec.woadA = some (sectionOf d 4) ∧
        s'.sec.imageB = s.sec.imageB ∧ s'.sec.woadB = s.sec.woadB) ∧
      (imageTrusted s d = false → ∃ s' : State, exec (.imageWrite w d) s = .next s' ∧ s'.sec = s.sec)) ∧
    (Accepts s w 0x1800 3 d → num d 0 1 ≠ 0 → ∃ s' : State, exec (.restoreDefaults w d) s = .next s' ∧
      WriteReplied s' w 0x1800 3 d 0 ∧ s'.saved = writeCopy s.saved [] ∧ s'.saved.live = s.saved.live) ∧
    (∀ key sig c, testPortOpen s = true → s.sec.unlocking = none → s.sec.dbg = 0 → unlockCode s key sig = some c →
      ∃ s' : State, exec (.debugUnlock key sig) s = .next s' ∧ s'.sec.unlocking = some c ∧ s'.sec.identity = false ∧
        s'.sec.challenge = s.sec.challenge + 1 ∧ s'.dram.devKey = false ∧ (∀ e ∈ s'.parts, e.2.key = false) ∧
        (∀ t, tileLive s t = true → (getBlock s (siteOf s t).block).stopped = false → s.clk.lost = false →
          (getTile s' t).mem = [] ∧ (getTile s' t).zeroising = true)) ∧
    (∀ key sig, testPortOpen s = true → s.sec.unlocking = none → unlockCode s key sig = none →
      exec (.debugUnlock key sig) s = .next { s with sec := { s.sec with challenge := s.sec.challenge + 1 } }) ∧
    (∀ c, s.sec.unlocking = some c → (∀ e ∈ s.tiles, e.2.mem = [] ∧ e.2.ecc = [] ∧ e.2.zeroising = false) → s.parts = [] →
      ∃ s' : State, exec .unlockComplete s = .next s' ∧ s'.sec.unlocking = none ∧ s'.sec.dbg = c) ∧
    (∀ c p P, s.sec.unlocking = some c → (∀ e ∈ s.tiles, e.2.mem = [] ∧ e.2.ecc = []) → s.parts = [(p, P)] → p ≤ 48 →
      P.st ≠ .free → P.ctx = none → s.xdt.conns = [] → s.dram.held = [] →
      ∃ s' : State, exec .unlockComplete s = .next s' ∧ s'.sec.unlocking = none ∧ s'.sec.dbg = c ∧ s'.parts = [])

/-! ### Aceel, the mailbox, MCTP and SPDM -/

/-- Aceel: a READ is answered with the entry's value; a WRITE performs it; READ_BLOCK at offset 0 makes the snapshot that later
blocks read; WRITE_BLOCK stages until LAST; SUBSCRIBE answers the value and keeps it; a NOTIFY of a changed value leaves; expiry
drops a snapshot or a staging. A frame that the transport discards moves nothing, an MCTP message whose packets do not assemble
among them (R351; the packet rules are DSP0236's, log entry 19); an undefined OP is answered RANGE; a WRITE that begins a context
reset or zeroises is answered when they have ended (R338 to R348). A WRITE_BLOCK at offset 0 begins a staging anew whatever was staged (log
entry 89), a NOTIFY leaves at once (log entry 90), and whether the node sees a PLCA beacon comes with a request (log entry 181). -/
def Obligations.AceelResults : Prop :=
  ∀ (s z : State) (h : Req) (port : HPort) (eid : Nat), z = seesBeacon s h → h.ep = .mctp port eid →
    (portOf s port).linkUp = true → (portOf s port).eid ≠ 0 → s.boot.silent = false → managed s port = true → s.aceel.answered = [] → s.aceel.waiting = [] →
    h.flags < 2 → h.status = 0 → h.len ≤ 4080 →
    (∀ d, discards h d = true → exec (.aceelWrite h d) s = .next s) ∧
    (∀ d ps, h.env.packets = some ps → assembles (4 + frameLen h d) ps = false → exec (.aceelWrite h d) s = .next s) ∧
    (discards h [] = true → exec (.aceelRead h) s = .next s ∧ exec (.readBlock h) s = .next s) ∧
    (h.op = 0 ∨ 6 ≤ h.op → discards h [] = false → ∃ s' : State, exec (.aceelRead h) s = .next s' ∧
      s'.out = s.out ++ [sent h.ep (bareReply h 5)] ∧ s'.tiles = s.tiles ∧ s'.parts = s.parts) ∧
    (∀ v i, h.op = 1 → h.off = 0 → h.ix ≠ 0x7802 → h.len = 0 → discards h [] = false → judge z h.ep h.ix h.sub false .read = .ok i → 0 < i.size →
      i.size ≤ 4080 → readEntry z h.ix h.sub [] = .ok v →
      ∃ s' : State, exec (.aceelRead h) s = .next s' ∧ s'.out = s.out ++ [sent h.ep
        ([0x81, 0] ++ natBytes 2 h.ix ++ [BitVec.ofNat 8 h.sub, 0] ++ natBytes 2 h.tag ++ natBytes 4 v.length ++ zeros 4 ++ v)] ∧
        s'.tiles = s.tiles ∧ s'.parts = s.parts) ∧
    (∀ e, h.op = 1 → h.off = 0 → h.len = 0 → h.ix ≠ 0x7802 → discards h [] = false →
      judge z h.ep h.ix h.sub false .read = .error e →
      ∃ s' : State, exec (.aceelRead h) s = .next s' ∧ s'.out = s.out ++ [sent h.ep (bareReply h e)]) ∧
    (∀ d x, h.op = 2 → h.off = 0 → h.len = d.length → discards h d = false → x = doWrite z h.ep h.ix h.sub d false h.flashOk →
      x.1.boot.silent = false → x.1.aceel.waiting = [] →
      ((∀ w, awaited z x.1 h d = some w → w.ended x.1 = true) →
        ∃ s' : State, exec (.aceelWrite h d) s = .next s' ∧ s'.out = x.1.out ++ [sent h.ep (bareReply h x.2)] ∧ s'.parts = x.1.parts ∧
          s'.tiles = x.1.tiles ∧ s'.saved = x.1.saved ∧ s'.sec = x.1.sec) ∧
      (∀ w, awaited z x.1 h d = some w → w.ended x.1 = false → x.2 = 0 →
        ∃ s' : State, exec (.aceelWrite h d) s = .next s' ∧ s'.out = x.1.out ∧ s'.parts = x.1.parts ∧
          s'.aceel.waiting = [w] ∧ w.req = h ∧ w.data = d ∧
          ((h.ix = 0x2011 ∨ (h.ix = 0x6000 ∧ h.sub = 1)) → w.fields = [] ∧ mfind s.ctxs (num d 0 1) = w.part))) ∧
    (∀ v i, h.op = 3 → h.off = 0 → h.ix ≠ 0x7802 → discards h [] = false → judge z h.ep h.ix h.sub true .read = .ok i →
      readEntry z h.ix h.sub [] = .ok v → h.len ≤ v.length →
      ∃ s' : State, exec (.readBlock h) s = .next s' ∧ s'.out = s.out ++ [sent h.ep (reply h 0 h.len (v.take h.len))] ∧
        ofEndpoint h.ep s'.aceel.snaps = some ⟨h.tag, h.ix, h.sub, v⟩) ∧
    (∀ v i, h.op = 3 → 0 < h.off → discards h [] = false → judge z h.ep h.ix h.sub true .read = .ok i →
      ofEndpoint h.ep s.aceel.snaps = some ⟨h.tag, h.ix, h.sub, v⟩ → h.off + h.len ≤ v.length →
      ∃ s' : State, exec (.readBlock h) s = .next s' ∧
        s'.out = s.out ++ [sent h.ep (reply h 0 h.len ((v.drop h.off).take h.len))]) ∧
    (∀ d, h.op = 4 → h.flags = 0 → h.off = 0 → h.len = d.length → discards h d = false → judgeBlock z h = none →
      ∃ s' : State, exec (.writeBlock h d) s = .next s' ∧ s'.out = s.out ++ [sent h.ep (bareReply h 0)] ∧
        ofEndpoint h.ep s'.aceel.stages = some ⟨h.tag, h.ix, h.sub, d⟩) ∧
    (∀ v i (per : Word32), h.op = 5 → h.off = 0 → h.len = 4 → h.ix ≠ 0x7802 → discards h (natBytes 4 per.toNat) = false →
      s.aceel.subs = [] → per.toNat ≤ 3600000 →
      judge z h.ep h.ix h.sub false .read = .ok i → 0 < i.size → i.size ≤ 4080 → readEntry z h.ix h.sub [] = .ok v →
      ∃ s' : State, exec (.subscribe h per) s = .next s' ∧ s'.out = s.out ++ [sent h.ep (wholeReply h v)] ∧
        s'.aceel.subs = [⟨h.ep, h.ix, h.sub, h.tag, if per = 0 then 0 else Nat.max 10 per.toNat, v, none⟩]) ∧
    (∀ (b : Subscription) v, s.aceel.subs = [b] → b.ep = h.ep → b.ix ≠ 0x7802 → b.period = 0 → b.last ≠ v →
      readFor s b.ep b.ix b.sub false [] = .ok v →
      ∃ s' : State, exec (.notify b.ep b.ix b.sub) s = .next s' ∧ s'.out = s.out ++ [sent b.ep (notifyFrame b v false)] ∧
        s'.aceel.subs = [{ b with last := v }]) ∧
    (∃ s' : State, exec (.snapshotExpiry h.ep) s = .next s' ∧ ofEndpoint h.ep s'.aceel.snaps = none ∧
      (∀ e, e ≠ h.ep → ofEndpoint e s'.aceel.snaps = ofEndpoint e s.aceel.snaps)) ∧
    (∃ s' : State, exec (.stagingExpiry h.ep) s = .next s' ∧ ofEndpoint h.ep s'.aceel.stages = none) ∧
    (∀ (w : WReq) (n : Nat) v i, w.ep = h.ep → judge s w.ep 0x7802 n false .read = .ok i → (getPart s (n - 1)).st ≠ .running →
      128 * scCount (getPart s (n - 1)).cfg.scale ≤ 4080 → i.size = 0 → readEntry s 0x7802 n [] = .ok v →
      ∃ s' q, exec (.scaleTableSnapshot w n []) s = .next s' ∧ s'.out = s.out ++ [sent h.ep q] ∧ q.drop 16 = v ∧
        byteAt q 5 = 0)

/-- The mailbox, MCTP control and SPDM (R350, R351, R413). The bytes of the MCTP control and SPDM messages, and the transport's packets, are
DSP0236's and DSP0274's, which the spec does not repeat (log entry 19, PRESUMED); a message leaves in packets of at most 64 bytes,
which make it up in order, and a request whose packets do not assemble moves nothing (R351). A control answer begins with the message
type and the instance ID of its request. -/
def Obligations.MailboxAndAttestationResults : Prop :=
  ∀ (s : State) (f : Fn) (port : HPort), (portOf s f.port).linkUp = true → fnExists s f = true →
    mrising (portOf s f.port).fns = true → (portOf s port).linkUp = true → s.boot.silent = false → managed s port = true →
    (∀ l : List Byte, (getFn s f).busy = false → (getFn s f).done = false → (getFn s f).notify = false →
      ∃ s' : State, exec (.hcMboxGo f l) s = .next s' ∧ (getFn s' f).busy = true ∧ (getFn s' f).request = l.take 4096) ∧
    (∀ l : List Byte, (getFn s f).busy = true ∨ (getFn s f).done = true ∨ (getFn s f).notify = true →
      ∃ s' : State, exec (.hcMboxGo f l) s = .next s' ∧ getFn s' f = getFn s f ∧ total s' 0x1100 7 = total s 0x1100 7 + 1) ∧
    (∀ l : List Byte, (mctpPackets l).flatten = l ∧ ∀ q ∈ mctpPackets l, q.length ≤ 64) ∧
    (∃ s' : State, exec (.hcMboxDone f) s = .next s' ∧ getFn s' f = { getFn s f with done := false }) ∧
    (∃ s' : State, exec (.hcMboxNotify f) s = .next s' ∧ getFn s' f = { getFn s f with notify := false }) ∧
    (∀ l, (getFn s f).ready = some l → ∃ s' : State, exec (.mailboxResponse f) s = .next s' ∧ (getFn s' f).busy = false ∧
      (getFn s' f).done = true ∧ (getFn s' f).response = l ∧
      ((mget {} (getFn s f).msix 2).masked = false → s'.out = s.out ++ [Output.msix f 2]) ∧
      ((mget {} (getFn s f).msix 2).masked = true → s'.out = s.out ∧ mget false (getFn s' f).pba 2 = true)) ∧
    (∀ m : MctpIn, mctpWhole m = false → (∀ e, exec (.setEndpointId m e) s = .next s) ∧
      (∀ row ∈ [Instr.getEndpointId m, .getMctpVersionSupport m, .getMessageTypeSupport m, .getVendorDefinedMessageSupport m,
        .getVersion m, .getCapabilities m, .negotiateAlgorithms m, .getDigests m], exec row s = .next s) ∧
      (∀ i a n l, exec (.getCertificate m i a n) s = .next s ∧ exec (.challenge m i l) s = .next s ∧
        exec (.getMeasurements m i l) s = .next s)) ∧
    (∀ (m : MctpIn) (i : Byte), m.port = port → mctpWhole m = true → i = BitVec.ofNat 8 (m.inst % 32) →
    (∀ e : Byte, e ≠ 0 → e ≠ 0xFF → ∃ s' : State, exec (.setEndpointId m e) s = .next s' ∧ (portOf s' port).eid = e ∧
      s'.out = s.out ++ [Output.mctp port [[0, i, 0x01, 0x00, 0, e, 0]]]) ∧
    (∃ s' : State, exec (.getEndpointId m) s = .next s' ∧
      s'.out = s.out ++ [Output.mctp port [[0, i, 0x02, 0x00, (portOf s port).eid, 0, 0]]]) ∧
    (∃ s' l, exec (.getMctpVersionSupport m) s = .next s' ∧ s'.out = s.out ++ [Output.mctp port [[0, i, 0x04, 0x00, 1] ++ l]] ∧
      l.length = 4) ∧
    (∃ s' : State, exec (.getMessageTypeSupport m) s = .next s' ∧
      s'.out = s.out ++ [Output.mctp port [[0, i, 0x05, 0x00, 2, 0x05, 0x7E]]]) ∧
    (∃ s' l, exec (.getVendorDefinedMessageSupport m) s = .next s' ∧
      s'.out = s.out ++ [Output.mctp port [[0, i, 0x06, 0x00, 0xFF, 0] ++ beBytes 2 Config.vendorId.toNat ++ l]] ∧ l.length = 2) ∧
    ((portOf s port).eid ≠ 0 →
      (∃ s' : State, exec (.getVersion m) s = .next s' ∧ (portOf s' port).spdm = false ∧ s'.out.length = s.out.length + 1) ∧
      (∃ s' l, exec (.getCapabilities m) s = .next s' ∧ s'.out = s.out ++ [Output.spdm port (spdmPackets l)]) ∧
      (∃ s' l, exec (.negotiateAlgorithms m) s = .next s' ∧ (portOf s' port).spdm = true ∧ s'.out = s.out ++ [Output.spdm port (spdmPackets l)]) ∧
      ((portOf s port).spdm = false → ∃ s' : State, exec (.getDigests m) s = .next s' ∧
        s'.out = s.out ++ [Output.spdm port [[0x05, 0x13, 0x7F, 4, 0]]]) ∧
      ((portOf s port).spdm = true →
        (∃ s' : State, exec (.getDigests m) s = .next s' ∧ s'.out = s.out ++ [Output.spdm port (spdmPackets ([0x13, 0x01, 0, 1] ++
          natBytes 64 (Config.sha3 ((List.range 16384).map Config.certChain)).toNat))]) ∧
        (∀ off len, off < 16384 → off + len ≤ 16384 → ∃ s' q, exec (.getCertificate m 0 off len) s = .next s' ∧
          s'.out = s.out ++ [Output.spdm port (spdmPackets (q ++ (List.range len).map (fun i => Config.certChain (off + i))))] ∧ q.length = 8) ∧
        (∀ nonce, s.sec.dbg = 0 → s.sec.unlocking = none → s.sec.identity = true →
          (∃ s' q, exec (.challenge m 0 nonce) s = .next s' ∧ q = nonce ++ allMeasurements s ∧
            s'.out = s.out ++ [Output.spdm port (spdmPackets (Config.spdmAnswer 0x03 (q ++ identitySign q)))]) ∧
          (∀ ix, 1 ≤ ix → ix ≤ 4 → ∃ s' q, exec (.getMeasurements m ix nonce) s = .next s' ∧ q = nonce ++ measurement s ix ∧
            s'.out = s.out ++ [Output.spdm port (spdmPackets (Config.spdmAnswer 0x60 (q ++ identitySign q)))])) ∧
        (∀ nonce, s.sec.dbg = 0 → s.sec.unlocking = none → s.sec.identity = false →
          ∃ s' : State, exec (.challenge m 0 nonce) s = .next s' ∧ s'.out = s.out ++ [Output.spdm port [[0x05, 0x13, 0x7F, 3, 0]]]))))

/-! ### Scale-out -/

/-- XDT on the receiving side: a data frame in order is taken; one past a gap is buffered and its gap named in a NAK; an old one
is acknowledged again; an ACK removes what it passes; a NAK marks exactly the named frames for retransmission and lowers the
rate to 7/8, as a CNP does in routed mode; a RESTART opens a connection that restarts, with PSNs from 0, and is answered by one that
is open (R283, R286, R288 to R290, R292 to R294); that 0x7000:0A counts then is log entry 129. A message is complete with its LAST
frame, here of one frame: a MSG enters the mesh at the connection's attachment tile as a train to its tile, or is discarded and
counted; a control record as the train that it stands for, or, an ERROR, as the error response to the request that it names; a
WRITE or a READ_REQ of one piece as a packet to a scratchpad or DRAM, with the rights of the connection's partition, the WRITE's
LAST frame not being acknowledged yet, and to any other address it is answered with an ERROR record; a READ_RSP answers its
request (R295 to R301). -/
def Obligations.XdtReceiveResults : Prop :=
  ∀ (s : State) (e : Nat) (fr : XFrame), ethReceives s e = true →
    (∀ row ∈ xdtTable,
      (fr.arrival.badHeader = true → ∃ s' : State, exec (row.1 e fr) s = .next s' ∧ total s' 0x7000 7 = total s 0x7000 7 + 1 ∧
        s'.xdt.conns = s.xdt.conns ∧ s'.out = s.out) ∧
      (fr.arrival = .fcs → ∃ s' : State, exec (row.1 e fr) s = .next s' ∧
        mget 0 (mget {} s'.xdt.eths e).counters 4 = mget 0 (mget {} s.xdt.eths e).counters 4 + 1 ∧
        s'.xdt.conns = s.xdt.conns ∧ s'.out = s.out) ∧
      (fr.arrival = .good → matchConn s e fr = none → ∃ s' : State, exec (row.1 e fr) s = .next s' ∧
        total s' 0x7000 6 = total s 0x7000 6 + 1 ∧ s'.xdt.conns = s.xdt.conns ∧ s'.out = s.out)) ∧
    (∀ (c : Nat) (C : Conn) (d : Nat), fr.arrival = .good → matchConn s e fr = some c → C = getConn s c → C.st = .opened →
      d = (BitVec.ofNat 32 fr.psn - C.expPsn).toNat →
      (∀ row ∈ xdtTable, fr.ce = false → C.unacked = [] → C.buffered = [] → C.partial_ = [] → C.window ≤ 4096 →
        heldBytes s (connSouth c) + fr.payload.length ≤ 2 ^ 26 →
        (d = 0 → fr.last = false → C.unackedRx < 15 → ∃ s' : State, exec (row.1 e fr) s = .next s' ∧
          (getConn s' c).expPsn = C.expPsn + 1 ∧ (getConn s' c).unackedRx = C.unackedRx + 1 ∧
          (getConn s' c).partial_ = [⟨row.2, fr⟩] ∧ s'.out = s.out ∧ s'.tiles = s.tiles ∧
          total s' 0x7000 2 = total s 0x7000 2 + 1) ∧
        (0 < d → d < C.window → C.lastNak = none → C.serves = [] → ∃ s' f, exec (row.1 e fr) s = .next s' ∧
          (getConn s' c).expPsn = C.expPsn ∧ mfind (getConn s' c).buffered fr.psn = some ⟨row.2, fr⟩ ∧
          s'.out = s.out ++ [frameOut s c ⟨0x11, f⟩] ∧ f.apsn = C.expPsn.toNat ∧ f.length = d ∧
          total s' 0x7000 4 = total s 0x7000 4 + 1) ∧
        (2 ^ 31 < d → ∃ s' f, exec (row.1 e fr) s = .next s' ∧ s'.out = s.out ++ [frameOut s c ⟨0x10, f⟩] ∧
          f.apsn = C.ackPsn.toNat ∧ (getConn s' c).expPsn = C.expPsn ∧ (getConn s' c).partial_ = [])) ∧
      (fr.restart = false → ∃ s' : State, exec (.xdtAck e fr) s = .next s' ∧
        (getConn s' c).unacked =
          C.unacked.filter (fun o => !(psnBefore (BitVec.ofNat 32 o.fr.psn) (BitVec.ofNat 32 fr.apsn))) ∧
        ((∃ o ∈ C.unacked, psnBefore (BitVec.ofNat 32 o.fr.psn) (BitVec.ofNat 32 fr.apsn) = true) →
          (getConn s' c).expiries = 0 ∧ (getConn s' c).timerUs = 64)) ∧
      (fr.restart = true → ∃ s' f, exec (.xdtAck e fr) s = .next s' ∧ (getConn s' c).st = .opened ∧
        (getConn s' c).nextPsn = 0 ∧ (getConn s' c).expPsn = 0 ∧ (getConn s' c).unacked = [] ∧
        total s' 0x7000 10 = total s 0x7000 10 + 1 ∧ s'.out.getLast? = some (frameOut s c ⟨0x10, f⟩) ∧ f.restart = true) ∧
      (C.lastCut = none → C.resend = [] → ∃ s' : State, exec (.xdtNak e fr) s = .next s' ∧
        (getConn s' c).resend = (C.unacked.filter (fun o =>
          !(psnBefore (BitVec.ofNat 32 o.fr.psn) (BitVec.ofNat 32 fr.apsn)))).filter (fun o =>
            decide ((BitVec.ofNat 32 o.fr.psn - BitVec.ofNat 32 fr.apsn).toNat < fr.length)) ∧
        (getConn s' c).rate = boundRate (C.rate * 7 / 8)) ∧
      (C.lastCut = none → C.routed = true → ∃ s' : State, exec (.xdtCnp e fr) s = .next s' ∧
        (getConn s' c).rate = boundRate (C.rate * 7 / 8) ∧ (getConn s' c).lastCut = some s.clk.gtc ∧
        total s' 0x7000 5 = total s 0x7000 5 + 1) ∧
      (C.routed = false → ∃ s' : State, exec (.xdtCnp e fr) s = .next s' ∧ (getConn s' c).rate = C.rate ∧
        total s' 0x7000 5 = total s 0x7000 5 + 1)) ∧
    (∀ (c : Nat) (C : Conn) (src : XY), fr.arrival = .good → matchConn s e fr = some c → C = getConn s c → C.st = .opened →
      BitVec.ofNat 32 fr.psn = C.expPsn → fr.last = true → fr.ce = false → C.unacked = [] → C.buffered = [] → C.partial_ = [] →
      C.serves = [] → C.unackedRx < 15 → heldBytes s (connSouth c) + fr.payload.length ≤ 2 ^ 26 →
      connTile s c = some src → s.mesh.flushing = [] →
      (fr.ctrl = false →
        (peerTileOk s c fr.dtile = true → routeOf s false src fr.dtile none ≠ .unreachable →
          ∃ (s' : State) (k : Pkt), exec (.xdtMsg e fr) s = .next s' ∧ mfind s'.mesh.pkts s.mesh.nextId = some k ∧ k.type = .msg ∧
            k.src = src ∧ k.dst = fr.dtile ∧ k.payload = fr.payload ∧ k.queue = BitVec.ofNat 4 fr.dqueue ∧
            k.ch = BitVec.ofNat 5 fr.ch ∧ k.pin = fr.pin ∧ k.seq = BitVec.ofNat 16 fr.msgid ∧
            k.remote = some (BitVec.ofNat 16 C.remoteDev, c) ∧ (getConn s' c).expPsn = C.expPsn + 1 ∧
            (getConn s' c).partial_ = []) ∧
        (peerTileOk s c fr.dtile = false → ∃ s' : State, exec (.xdtMsg e fr) s = .next s' ∧ s'.mesh.pkts = s.mesh.pkts ∧
          total s' 0x2800 6 = total s 0x2800 6 + 1 ∧ s'.tiles = s.tiles ∧ (getConn s' c).partial_ = [])) ∧
      (∀ v, fr.ctrl = true → v = leNat fr.payload →
        (∀ row ∈ [(3, PktType.opn), (4, .cls), (10, .msgAck), (11, .openRsp), (12, .closeRsp)], ∀ dst : XY,
          v % 16 = row.1 → dst = ⟨bits v 12 6, bits v 19 13⟩ → peerTileOk s c dst = true →
          routeOf s row.2.rsp src dst none ≠ .unreachable →
          ∃ (s' : State) (k : Pkt), exec (.xdtMsg e fr) s = .next s' ∧ mfind s'.mesh.pkts s.mesh.nextId = some k ∧
            k.type = row.2 ∧ k.src = src ∧ k.dst = dst ∧ k.tag = bits v 61 56 ∧ k.ch = BitVec.ofNat 5 (bits v 107 103) ∧
            k.win = bits v 102 83 ∧ k.status = BitVec.ofNat 8 (bits v 127 120)) ∧
        (∀ k : Pkt, v % 16 = 13 → mfind C.requests fr.msgid = some k → routeOf s true k.dst k.src none ≠ .unreachable →
          mrising C.requests = true → ∃ s' : State, exec (.xdtMsg e fr) s = .next s' ∧
            Responds s s' k .error (BitVec.ofNat 8 (bits v 127 120)) [] ∧ mfind (getConn s' c).requests fr.msgid = none)) ∧
      (∀ row ∈ [(Instr.xdtWrite, PktType.write, fr.payload.length), (.xdtReadReq, .readReq, fr.length)],
        servePieces fr.addr row.2.2 = [(fr.addr, row.2.2)] →
        (∀ dst u, endpoint s fr.addr = some (dst, u) → u = .tile ∨ u = .dram → routeOf s false src dst none ≠ .unreachable →
          ∃ (s' : State) (k : Pkt), exec (row.1 e fr) s = .next s' ∧ mfind s'.mesh.pkts s.mesh.nextId = some k ∧
            k.type = row.2.1 ∧ k.src = src ∧ k.dst = dst ∧ k.unit = u ∧ k.addr = fr.addr ∧ k.len = row.2.2 ∧
            k.part = some C.part ∧ (row.2.1 = .write → k.payload = fr.payload) ∧
            (getConn s' c).ackPsn = (if row.2.1 = .write then C.expPsn else C.expPsn + 1)) ∧
        ((∀ dst, endpoint s fr.addr ≠ some (dst, .tile) ∧ endpoint s fr.addr ≠ some (dst, .dram)) →
          ∃ (s' : State) (f : XFrame), exec (row.1 e fr) s = .next s' ∧ (getConn s' c).fresh = C.fresh ++ [⟨0x01, f⟩] ∧
            f.ctrl = true ∧ f.last = true ∧ f.msgid = fr.msgid ∧ recordType f.payload = 13 ∧ s'.mesh.pkts = s.mesh.pkts ∧
            s'.tiles = s.tiles)) ∧
      (∀ k : Pkt, mfind C.requests fr.msgid = some k → routeOf s true k.dst k.src none ≠ .unreachable →
        mrising C.requests = true → ∃ s' : State, exec (.xdtReadRsp e fr) s = .next s' ∧
          Responds s s' k .readRsp 0 fr.payload ∧ mfind (getConn s' c).requests fr.msgid = none)) ∧
    (∀ c, fr.arrival = .good → matchConn s e fr = some c → (getConn s c).st = .restarting → fr.restart = true →
      ∃ s' : State, exec (.xdtAck e fr) s = .next s' ∧ (getConn s' c).st = .opened ∧ (getConn s' c).nextPsn = 0 ∧
        (getConn s' c).expPsn = 0 ∧ total s' 0x7000 10 = total s 0x7000 10 + 1)

/-- XDT on the sending side: a retransmission goes first, marked; else the oldest new frame within the window takes the next
PSN; the ACK timer acknowledges; an expiry doubles the timer, halves the rate and marks the oldest frame, and the eighth fails
the connection; RESTART and automatic restart; the rate grows by 12.5 Gb/s, which is 12,500 Mb/s of the rate's unit (R288 to R293, Table 11.6). -/
def Obligations.XdtSendResults : Prop :=
  ∀ (s : State) (c : Nat) (C : Conn), C = getConn s c →
    (connSends s c = true → sendTurn s (c / 256) = some c →
      (∀ o r, C.resend = o :: r → ∃ s' : State, exec (.xdtFrameSend c) s = .next s' ∧ (getConn s' c).resend = r ∧
        s'.out = s.out ++ [frameOut s c ⟨o.op, { o.fr with retx := true, apsn := C.ackPsn.toNat }⟩] ∧
        (getConn s' c).unacked = C.unacked ∧ (getConn s' c).nextPsn = C.nextPsn ∧
        total s' 0x7000 3 = total s 0x7000 3 + 1) ∧
      (∀ o r, C.resend = [] → C.fresh = o :: r → C.unacked.length < C.window → ∃ s' : State, exec (.xdtFrameSend c) s = .next s' ∧
        (getConn s' c).fresh = r ∧ (getConn s' c).nextPsn = C.nextPsn + 1 ∧
        (getConn s' c).unacked = C.unacked ++ [⟨o.op, { o.fr with psn := C.nextPsn.toNat }⟩] ∧
        s'.out = s.out ++ [frameOut s c ⟨o.op, { o.fr with psn := C.nextPsn.toNat, apsn := C.ackPsn.toNat }⟩] ∧
        total s' 0x7000 1 = total s 0x7000 1 + 1 ∧
        (getConn s' c).paced = s.clk.gtc + ceilDiv (8000 * (frameBytes C.tagged C.routed o + 20)) C.rate ∧
        (mget {} s'.xdt.eths (c / 256)).served = c % 256 + 1)) ∧
    (s.clk.gtc < C.paced ∨ (C.resend = [] ∧ C.window ≤ C.unacked.length) → exec (.xdtFrameSend c) s = .next s) ∧
    (connSends s c = true →
      (0 < C.unackedRx → ∃ s' f, exec (.ackTimer c) s = .next s' ∧ s'.out = s.out ++ [frameOut s c ⟨0x10, f⟩] ∧
        f.apsn = C.ackPsn.toNat ∧ f.restart = false ∧ (getConn s' c).unackedRx = 0 ∧ (getConn s' c).expPsn = C.expPsn)) ∧
    (∀ o r, C.st = .opened → s.boot.resetting = none → C.unacked = o :: r →
      (C.expiries < 7 → ∃ s' : State, exec (.retransmissionTimeout c) s = .next s' ∧ (getConn s' c).expiries = C.expiries + 1 ∧
        (getConn s' c).timerUs = Nat.min 8192 (2 * C.timerUs) ∧ (getConn s' c).rate = boundRate (C.rate / 2) ∧
        (getConn s' c).unacked = C.unacked ∧ (∃ x ∈ (getConn s' c).resend, x.fr.psn = o.fr.psn)) ∧
      (C.expiries = 7 → ∃ s' : State, exec (.retransmissionTimeout c) s = .next s' ∧ (getConn s' c).st = .failed ∧
        (getConn s' c).unacked = [] ∧ total s' 0x7000 9 = total s 0x7000 9 + 1)) ∧
    (ethReceives s (c / 256) = true → C.enabled = true → C.st = .restarting → ∃ s' f, exec (.restartTimer c) s = .next s' ∧
      s'.out = s.out ++ [frameOut s c ⟨0x10, f⟩] ∧ f.restart = true ∧ (getConn s' c).st = .restarting) ∧
    (C.enabled = true → C.autoRestart = true → C.st = .failed → s.boot.resetting = none →
      ∃ s' : State, exec (.autoRestart c) s = .next s' ∧ (getConn s' c).st = .restarting ∧ (getConn s' c).rate = 100000 ∧
        (getConn s' c).nextPsn = 0) ∧
    (C.st = .opened → C.quiet + 55000 ≤ s.clk.gtc → ∃ s' : State, exec (.rateIncrease c) s = .next s' ∧ (getConn s' c).rate = boundRate (C.rate + 12500) ∧
      (getConn s' c).unacked = C.unacked)

/-- Requests to a remote aperture become XDT messages of the aperture's connection, or are answered with an error of status 5, 3 or 7
(log entry 14); a poisoned READ_REQ is discarded and counted (R242). A PAUSE frame is only counted; a solicitation of an own address
is answered, every other discarded, and both are counted; the port's link; every PTP event message is counted and timestamped, sent or
received; the time port (R280, R281, R299, R302, R303). The bytes that 0x7005 counts of these frames are free (log entry 154); that the offset is the
master's time less the GTC is log entry 176. -/
def Obligations.ApertureAndPortResults : Prop :=
  ∀ (s : State),
    (∀ pid k n south B, AtEnd s pid k → Brings s k B → k.unit = .cuffN south → (k.type = .readReq ∨ k.type = .write) →
      s.boot.resetting = none → n = (k.addr - 0x0A0000000000) / 2 ^ 34 →
      (k.type = .readReq → k.poison = true → ∃ s' : State, exec (.apertureRequest pid) s = .next s' ∧ mfind s'.mesh.pkts pid = none ∧
        s'.xdt = s.xdt ∧ s'.mesh.nextId = s.mesh.nextId ∧ total s' 0x2800 9 = total s 0x2800 9 + 1) ∧
      (k.poison = false → getAp s n = none → ∃ s' : State, exec (.apertureRequest pid) s = .next s' ∧ Responds s s' k .error 5 []) ∧
      (∀ ap, getAp s n = some ap →
        (k.poison = false → mayReach s k = false → ∃ s' : State, exec (.apertureRequest pid) s = .next s' ∧ Responds s s' k .error 3 []) ∧
        (k.poison = false → mayReach s k = true → (getConn s ap.conn).st ≠ .opened →
          ∃ s' : State, exec (.apertureRequest pid) s = .next s' ∧ Responds s s' k .error 7 []) ∧
        (∀ C : Conn, C = getConn s ap.conn → mayReach s k = true → C.st = .opened → k.poison = false →
          outstandingIn s south < 16384 → ∃ s' : State, exec (.apertureRequest pid) s = .next s' ∧
            mfind s'.mesh.pkts pid = none ∧ (∃ q, mfind (getConn s' ap.conn).requests C.nextMsg.toNat = some q ∧
              q.src = k.src ∧ q.dst = k.dst ∧ q.tag = k.tag ∧ q.piece = k.piece ∧ (k.loc = none → q = k)) ∧
            (getConn s' ap.conn).nextMsg = C.nextMsg + 1 ∧
            (k.type = .readReq → ∃ f, (getConn s' ap.conn).fresh = C.fresh ++ [⟨0x03, f⟩] ∧
              f.addr = ap.base + k.addr % 2 ^ 34 ∧ f.length = k.len ∧ f.msgid = C.nextMsg.toNat ∧ f.last = true) ∧
            (k.type = .write → B.length ≤ 8192 → ∃ f, (getConn s' ap.conn).fresh = C.fresh ++ [⟨0x02, f⟩] ∧
              f.addr = ap.base + k.addr % 2 ^ 34 ∧ f.payload = B ∧ f.msgid = C.nextMsg.toNat ∧ f.last = true)))) ∧
    (∀ e, e < 16 → ethReceives s e = true → ∃ s' : State, exec (.pauseFrame e) s = .next s' ∧
      mget 0 (mget {} s'.xdt.eths e).counters 7 = mget 0 (mget {} s.xdt.eths e).counters 7 + 1 ∧
      mget 0 (mget {} s'.xdt.eths e).counters 1 = mget 0 (mget {} s.xdt.eths e).counters 1 + 1 ∧
      s'.xdt.conns = s.xdt.conns ∧ s'.out = s.out) ∧
    (∀ n target, n < 16 → ethReceives s n = true →
      ∃ s' : State, exec (.neighborSolicitation (some n) target) s = .next s' ∧ s'.xdt.conns = s.xdt.conns ∧
        mget 0 (mget {} s'.xdt.eths n).counters 1 = mget 0 (mget {} s.xdt.eths n).counters 1 + 1 ∧
        (target = linkLocal (Config.baseMac + 1 + n) ∨ liveEntry s 0x7004 (n + 1) = some target →
          s'.out = s.out ++ [Output.advert (some n) target] ∧
          mget 0 (mget {} s'.xdt.eths n).counters 0 = mget 0 (mget {} s.xdt.eths n).counters 0 + 1) ∧
        (target ≠ linkLocal (Config.baseMac + 1 + n) → liveEntry s 0x7004 (n + 1) ≠ some target → s'.out = s.out)) ∧
    (s.power.on = true → s.boot.silent = false → ∃ s' : State, exec (.neighborSolicitation none (linkLocal Config.baseMac)) s = .next s' ∧
      s'.out = s.out ++ [Output.advert none (linkLocal Config.baseMac)]) ∧
    (∀ e lanes, e < 16 → tclkRuns s = true → mrising s.xdt.eths = true →
      (liveNat s 0x7003 (e + 1) 2 = 2 → ∃ s' : State, exec (.ethernetLinkChange e true lanes) s = .next s' ∧
        (mget {} s'.xdt.eths e).up = true ∧ (mget {} s'.xdt.eths e).lanes = lanes) ∧
      ((liveNat s 0x7003 (e + 1) 2).testBit 1 = false → exec (.ethernetLinkChange e true lanes) s = .next s) ∧
      (∃ s' : State, exec (.ethernetLinkChange e false lanes) s = .next s' ∧ (mget {} s'.xdt.eths e).up = false)) ∧
    (∀ e (ev : PtpEvent) (g : Nat), e < 16 → ethReceives s e = true → g = gtcOf s (if e < 8 then 3 else 45) →
      ∃ s' t i, exec (.ptpEventMessage e ev) s = .next s' ∧ t % 2 = 0 ∧ t ≤ g + 4 ∧ g ≤ t + 4 ∧ i = (if ev.transmit then 0 else 1) ∧
        mget 0 (mget {} s'.xdt.eths e).counters i = mget 0 (mget {} s.xdt.eths e).counters i + 1 ∧
        (ev.transmit = true → (mget {} s'.xdt.eths e).txStamp = some t ∧ s'.clk = s.clk) ∧
        (ev.transmit = false → (mget {} s'.xdt.eths e).rxStamp = some t)) ∧
    (∀ e (ev : PtpEvent), e < 16 → ethReceives s e = true → liveNat s 0x7040 1 0xFF = e → ev.transmit = false →
      ∃ s' : State, exec (.ptpEventMessage e ev) s = .next s' ∧ s'.xdt.offset = ev.offsetNs ∧
        -2147484 ≤ s'.xdt.rateAdj ∧ s'.xdt.rateAdj ≤ 2147484 ∧
        (s.xdt.stepped = true → s'.clk.gtc = s.clk.gtc) ∧ (ev.offsetNs ≤ 1000000 → s'.clk.gtc = s.clk.gtc) ∧
        (s.xdt.timeState = 2 → s.xdt.stepped = false → 1000000 < ev.offsetNs →
          s'.clk.gtc = s.clk.gtc + ev.offsetNs.natAbs ∧ s'.xdt.stepped = true))

/-! ### Clocks -/

/-- The loss of the active reference moves every PLL to the other, or stops CCLK where that is lost too; its return changes
nothing in use; where none is in use, the loss of the last good one is raised as well (R358 to R361). An operating-point change stops CCLK in every field of the partition, restarts it at the new point
with the cycle counts at 0, retries a PLL once and falls to OP4 (R367, R369). A sync pulse steps a late copy forward and holds an
early one, which is how log entry 102 reads R375, and no copy steps backward; F18 sends after F24 (R375, R376). Records of events
that were set while CCLK stood are written when it runs again (log entry 137); every other tile is then as it was. -/
def Obligations.ClockResults : Prop :=
  ∀ (s : State), s.power.on = true → mrising s.fields = true →
    (∀ r, s.clk.active ≠ some r → ∃ s' : State, exec (.referenceLoss r) s = .next s' ∧ s'.clk.active = s.clk.active ∧
      refGood s' r = false ∧ refGood s' (otherRef r) = refGood s (otherRef r) ∧
      (s.clk.active = none → refGood s r = true → refGood s (otherRef r) = false →
        s'.events.latched.getLsbD clRefclk = true)) ∧
    (∀ r, s.clk.active = some r → refGood s (otherRef r) = true → ∃ s' : State, exec (.referenceLoss r) s = .next s' ∧
      s'.clk.active = some (otherRef r) ∧ total s' 0x4000 4 = total s 0x4000 4 + 1 ∧ s'.clk.lost = s.clk.lost) ∧
    (∀ r, s.clk.active = some r → refGood s (otherRef r) = false → ∃ s' : State, exec (.referenceLoss r) s = .next s' ∧
      s'.clk.active = none ∧ s'.clk.lost = true ∧ s'.dram.selfRefresh = true ∧ s'.clk.sync = 0xFF ∧
      s'.events.latched.getLsbD clRefclk = true ∧ (∀ t, clockOn s' t = false)) ∧
    (∀ r, ∃ s' : State, exec (.referenceReturn r) s = .next s' ∧ refGood s' r = true ∧ s'.clk.active = s.clk.active) ∧
    (∀ p t, (getPart s p).st ≠ .free →
      ((getPart s p).change = some (.decided t) → s.sec.unlocking = none → ∃ s' : State, exec (.operatingPointCclkStop p) s = .next s' ∧
        (getPart s' p).change = some (.stopped t) ∧ (getPart s' p).op = (getPart s p).op ∧
        (∀ f ∈ liveFields s p, (getField s' f).stopped = true) ∧ s'.tiles = s.tiles) ∧
      ((getPart s p).change = some (.stopped t) → s.clk.lost = false →
        ((getPart s p).pendPoint = none → s.sec.unlocking = none → ∃ s' : State, exec (.cclkRestart p) s = .next s' ∧
          (getPart s' p).op = t ∧ (getPart s' p).change = none ∧
          (∀ f ∈ liveFields s p, (getField s' f).op = t ∧ (getField s' f).stopped = false ∧ (getField s' f).cyc = 0) ∧
          ((∀ e ∈ s.tiles, e.2.traceHeld = []) → s'.tiles = s.tiles)) ∧
        (∀ f ∈ liveFields s p, (getField s f).retried = false → ∃ s' : State, exec (.pllLockTimeout p f) s = .next s' ∧
          (getField s' f).retried = true ∧ s'.parts = s.parts) ∧
        (∀ f ∈ liveFields s p, (getField s f).retried = true → ∃ s' : State, exec (.pllLockTimeout p f) s = .next s' ∧
          (getPart s' p).op = 4 ∧ (getPart s' p).ceiling = 4 ∧ (getPart s' p).change = none ∧
          s'.events.latched.getLsbD clClock = true))) ∧
    (∀ f g (d : Int), syncField s = some f → fieldAlive s f = true → s.boot.resetting ≠ some .full → fieldAlive s g = true →
      mrising s.totals = true →
      ∃ s' : State, exec (.syncPulse [(g, d)]) s = .next s' ∧ s'.clk.gtc = s.clk.gtc ∧ (getField s g).gtcOff ≤ (getField s' g).gtcOff ∧
        (d < -4 → (getField s' g).gtcOff = max (getField s g).gtcOff 0) ∧
        (4 < d → d ≤ (getField s' g).gtcOff ∧ (getField s' g).gtcHeld = true) ∧
        total s' 0x4000 6 = total s 0x4000 6 + (if 4 < d.natAbs then 1 else 0)) ∧
    (s.boot.resetting ≠ some .full →
      (s.clk.sync = 0 → ∃ s' : State, exec .syncPulseMissing s = .next s' ∧
        s'.clk.sync = (if fieldAlive s 18 then 1 else 0xFF) ∧ s'.events.latched.getLsbD clFieldTime = true) ∧
      (s.clk.sync = 1 → ∃ s' : State, exec .syncPulseMissing s = .next s' ∧ s'.clk.sync = 0xFF))

/-! ### Power and heat -/

/-- The emergency cap of every field is 8, which its blocks take in its first cycle with c = 0 (R386); a converter less, and an input fault below five; a fault of the input leaves only
flash, fuses and pins; a field's supply; the governor gives every partition 16 when the sum fits and otherwise the largest k
that fits, in service and in a compute reset; every energy is counted (R380 to R383, R389, R391, R394, R395, R474). What a fault of the
input leaves of the pins is log entry 99; the predicted powers are the operand's (log entry 93), and the shares of the conversion loss
are rounded as log entry 92 says. -/
def Obligations.PowerResults : Prop :=
  ∀ (s : State), s.power.on = true →
    (∃ s' : State, exec .emergencyCap s = .next s' ∧ s'.power.emergency = true ∧
      (∀ f, fieldCap s' f ≤ 8 ∧ (mrising s.fields = true → ∀ t, t.field = f → issueCap (takeCap s' f) t ≤ 8)) ∧
      total s' 0x3000 10 = total s 0x3000 10 + 1 ∧ s'.tiles = s.tiles) ∧
    (6 ≤ s.power.converters → ∃ s' : State, exec .converterFailure s = .next s' ∧
      s'.power.converters = s.power.converters - 1 ∧ s'.power.on = true ∧ s'.tiles = s.tiles) ∧
    (1 ≤ s.power.converters → s.power.converters ≤ 5 → ∃ s' : State, exec .converterFailure s = .next s' ∧
      s'.power.on = false ∧ s'.pins.faultLatched = true) ∧
    (∃ s' : State, exec .inputFault s = .next s' ∧ s'.power.on = false ∧ s'.pins.faultLatched = true ∧ s'.tiles = [] ∧
      s'.dram.mem = [] ∧ s'.parts = [] ∧ s'.sec.minSvn = s.sec.minSvn ∧ s'.sec.slots = s.sec.slots ∧
      s'.saved.copy0 = s.saved.copy0 ∧ s'.saved.copy1 = s.saved.copy1 ∧ (∀ f, f < 49 → (getField s' f).power = .offInput)) ∧
    (∀ f cause p, f ≤ 48 → fieldAlive s f = true → s.boot.st ≠ .booting → mrising s.parts = true → partOfField s f = some p →
      ∃ s' : State, exec (.fieldSupplyTrip f cause) s = .next s' ∧
        (getField s' f).power = (match cause with | .short => .offShort | .supply => .offSupply | .thermal => .offThermal) ∧
        (∀ t, t.inGrid = true → t.field = f → isHole s' t = true) ∧ (getPart s' p).st = .outOfService ∧
        (cause = .thermal → s'.pins.thermtripN = false)) ∧
    (∀ (m : GovMeas) (cap : Nat) (ds : List Demand), (s.boot.st = .ready ∨ s.boot.st = .computeReset) → cap = effectiveCap s → mrising s.parts = true →
      ds = (s.parts.filter (fun e => decide (e.2.st ≠ .free))).map (fun e => demandOf s m e.2 e.1) →
      (m.other + (ds.map (fun d => d.base + d.dyn)).sum ≤ cap → (∀ d ∈ ds, d.cap ≤ 16) →
        ∃ s' : State, exec (.governorCycle m) s = .next s' ∧ (∀ p, (getPart s p).st ≠ .free → (getPart s' p).powerK = 16) ∧
          (m.input ≤ cap → s'.power.emergency = false)) ∧
      (∀ d p, ds = [d] → d.id = p → 0 < d.fields → m.other ≤ cap → 16 * (cap - m.other) < d.at16 d.cap →
        ∃ s' : State, exec (.governorCycle m) s = .next s' ∧ 1 ≤ (getPart s' p).powerK ∧ (getPart s' p).powerK ≤ 16 ∧
          ((getPart s' p).powerK = 1 ∨ d.run16 (getPart s' p).powerK ≤ 16 * (cap - m.other)) ∧
          (∀ j, (getPart s' p).powerK < j → j ≤ 16 → 16 * (cap - m.other) < d.run16 j))) ∧
    (∀ (m : EnergyMeas) (out : Nat → Nat) (sum loss : Nat), mrising s.totals = true → out = (fun f => if fieldAlive s f then lookup m.fields f else 0) →
      sum = ((List.range 49).map out).sum → loss = m.input - (sum + m.lpddr + m.cuff) →
      ∃ s' : State, exec (.energyInterval m) s = .next s' ∧ total s' 0x3000 1 = total s 0x3000 1 + m.input ∧
        total s' 0x3000 2 = total s 0x3000 2 + sum ∧ total s' 0x3000 3 = total s 0x3000 3 + m.lpddr ∧
        total s' 0x3000 4 = total s 0x3000 4 + m.cuff ∧ total s' 0x3000 5 = total s 0x3000 5 + loss ∧
        (∀ p P, s.parts = [(p, P)] → P.st ≠ .free → (getPart s' p).energy = P.energy + BitVec.ofNat 64
          ((P.fields.map (fun f => out f + lossShare loss (out f) sum)).sum)))

/-- A trip of any of a block's four detectors caps the block at 8 at once, holds, and ramps by one; a reading of 105 °C or more stops the block, one of 115 °C or
more ends the field and pulls THERMTRIP_N, one at the throttle threshold lowers the field's value by one; recovery raises it;
a cooled block's clock runs again in the field's next cycle with c = 0 (R387, R392, Table 15.6). -/
def Obligations.ThermalResults : Prop :=
  ∀ (s : State) (f b : Nat), blockOk s f b = true → mrising s.blocks = true → mrising s.fields = true →
    mrising s.sites = true → s.boot.st ≠ .booting →
    (∀ det, det / 4 = b → ∃ s' : State, exec (.droopTrip f det) s = .next s' ∧ (getBlock s' (16 * f + b)).droop = 8 ∧
      (getBlock s' (16 * f + b)).hold = true ∧ (getBlock s' (16 * f + b)).tripped.getLsbD (det % 4) = true ∧
      (∀ t, (siteOf s t).block = 16 * f + b → issueCap s' t ≤ 8) ∧
      (∀ t ∈ blockTiles s f b, tileLive s t = true → (getTile s' t).event.getLsbD evDroop = true)) ∧
    ((getBlock s (16 * f + b)).droop < 16 → ∃ s' : State, exec (.droopRamp f b) s = .next s' ∧
      (getBlock s' (16 * f + b)).droop = (getBlock s (16 * f + b)).droop + 1 ∧ s'.tiles = s.tiles) ∧
    (∀ (a : SiteId) (v : Nat), a.valid = true → a.field = f → a.block = 16 * f + b → v < 256 →
      (v < 115 → ∃ s' : State, exec (.thermalReading [(a, v)]) s = .next s' ∧ (getSite s' a).temp = v) ∧
      (115 ≤ v → ∃ s' : State, exec (.thermalReading [(a, v)]) s = .next s' ∧ (getField s' f).power = .offThermal ∧
        s'.pins.thermtripN = false) ∧
      (105 ≤ v → v < 115 → ∃ s' : State, exec (.thermalReading [(a, v)]) s = .next s' ∧
        (getBlock s' (16 * f + b)).stopped = true ∧ (getField s' f).power = .on) ∧
      (throttleAt s ≤ v → v < 105 →
        ∃ s' : State, exec (.thermalReading [(a, v)]) s = .next s' ∧
          (getField s' f).thermal = Nat.max 1 ((getField s f).thermal - 1) ∧
          (getBlock s' (16 * f + b)).stopped = (getBlock s (16 * f + b)).stopped)) ∧
    ((getField s f).thermal < 16 → (getField s f).hottest + 3 < throttleAt s →
      ∃ s' : State, exec (.thermalRecovery f) s = .next s' ∧ (getField s' f).thermal = (getField s f).thermal + 1 ∧
        s'.tiles = s.tiles) ∧
    ((getBlock s (16 * f + b)).stopped = true → blockTemp s f b < 100 → s.sec.unlocking = none →
      ∃ s' : State, exec (.blockClockRestart f b) s = .next s' ∧
        ((∀ e ∈ s.tiles, e.2.traceHeld = []) → s'.tiles = s.tiles) ∧
        (getBlock (restartBlock s' f b) (16 * f + b)).stopped = false ∧
        ((getField s f).cyc.toNat % 16 = 0 → (getField s f).stopped = false → s.clk.lost = false →
          (getBlock s' (16 * f + b)).stopped = false) ∧
        ((getField s f).cyc.toNat % 16 ≠ 0 → (getBlock s' (16 * f + b)).restart = true)) ∧
    ((getBlock s (16 * f + b)).stopped = true → 100 ≤ blockTemp s f b → exec (.blockClockRestart f b) s = .next s)

/-! ### Events, controllers and recovery -/

/-- A seam lane that disagrees is replaced once per spare; a forwarded event is latched by its class and leaves the tile; an
uncorrectable word decides a compute reset; heartbeats, hangs and the failover of the boot master (R20 to R22, R445, R451 to
R455). The numbering of bundles and the turns of their lanes are log entries 17 and 103, and that a lane which a Hem lane carries
already counts once more is log entry 148; a parity error of a control lane, whose class is raised with it, waits under a name of its
own (log entry 105); what a failover leaves is log entry 101. -/
def Obligations.ControllerResults : Prop :=
  ∀ (s : State), s.power.on = true → mrising s.fields = true → s.boot.st = .ready → s.boot.resetting = none →
    (∀ n v (d : Bool), n < 1386 * 92 → v = mget {} s.bundles n → fieldAlive s (bundleFields n).1 = true →
      fieldAlive s (bundleFields n).2 = true → v.bad < 2 → mrising s.bundles = true → tclkRuns s = true →
      ∃ s' : State, exec (.laneCompareStep n d) s = .next s' ∧ (mget {} s'.bundles n).bad = v.bad + (if d then 1 else 0) ∧
        (mget {} s'.bundles n).lane = (v.lane + 1) % 32 ∧
        (d = true → s'.events.latched.getLsbD clSeamLane = true) ∧ (d = false → s'.events = s.events)) ∧
    (∀ t bit h, s.ok = true → tileLive s t = true → (getField s t.field).hung = false → bit < 14 → h = (getTile s t).raisedAs bit →
      (h ∉ (getTile s t).raised → exec (.eventForward t bit) s = .next s) ∧
      (h ∈ (getTile s t).raised → ∃ s' : State, exec (.eventForward t bit) s = .next s' ∧
        ((∀ g ∈ (getTile s t).raised.erase h, eventBit g ≠ bit) → (getTile s' t).event.getLsbD bit = false) ∧
        ((∃ g ∈ (getTile s t).raised.erase h, eventBit g = bit) → (getTile s' t).event = (getTile s t).event) ∧
        (getTile s' t).raised = (getTile s t).raised.erase h ∧
        (∀ c sv me ac, eventClass s t h = some (c, sv, me, ac) → s'.events.latched.getLsbD c = true) ∧
        (bit = evSendStall → s'.events.latched.getLsbD clSendStall = true) ∧
        (bit = evEccUe → s'.boot.resetting ≠ none))) ∧
    (∀ l f m, s.boot.master = some m → f < 49 → fieldAlive s f = true → (getField s f).hung = false → ∃ s' : State, exec (.heartbeat l) s = .next s' ∧
      (getField s' f).missed = (if l.contains f then 0 else (getField s f).missed + 1) ∧
      (m = f → l.contains f = true → s'.boot.heartbeat = s.boot.heartbeat + 1)) ∧
    (∀ f, f < 49 → isHung s f = true → s.boot.master ≠ some f →
      ((getField s f).hangs = [] → ∃ s' : State, exec (.controllerHang f) s = .next s' ∧ (getField s' f).hung = true ∧
        (getField s' f).defect = (getField s f).defect ∧ s'.boot.resetting = none ∧
        s'.events.latched.getLsbD clHeartbeat = true) ∧
      (∀ g h, (getField s f).hangs = [g, h] → s.clk.gtc < g + 3600000000000 → s.clk.gtc < h + 3600000000000 →
        ∃ s' : State, exec (.controllerHang f) s = .next s' ∧ (getField s' f).defect = some 6 ∧
          s'.boot.resetting = some .full)) ∧
    (∀ f, f < 49 → fieldAlive s f = true → (getField s f).hung = true → ∃ s' : State, exec (.controllerRestarted f) s = .next s' ∧
      (getField s' f).hung = false ∧ (getField s' f).missed = 0) ∧
    (∀ m b, s.boot.master = some m → (fieldAlive s m = false ∨ isHung s m = true) → s.boot.standby = some b → b ≠ m → b < 49 →
      candidate s b = true → s.boot.computeAt = [] → ∃ s' : State, exec .bootMasterFailover s = .next s' ∧
        s'.boot.master = some b ∧ s'.boot.resetting = some .compute ∧ s'.events.latched.getLsbD clHeartbeat = true)

/-- The ends of resets: when the mesh holds no train of the context, the flush ends and the partition's tiles zeroise; then they
stand reset, the step number is C, the partition is BOUND, or IDLE and unbound, and a WRITE that asked for the reset is answered
OK (R344); a compute reset leaves DRAM as it was; a reset that does not
end escalates, a full one to FAILED (R459 to R461, R465, Tables 16.4, 16.5 and 18.5). -/
def Obligations.ResetEndResults : Prop :=
  ∀ (s : State), s.ok = true →
    (∀ p P r, P = getPart s p → P.st ≠ .free → P.resetting = some r →
      ((∀ e ∈ s.mesh.pkts, ¬(flushingPkt s e.2 = true ∧ some e.2.ctx = P.ctx)) →
        ∃ s' : State, exec (.contextFlushEnd p) s = .next s' ∧ (getPart s' p).resetting.map (·.flushed) = some true ∧
          p ∉ s'.mesh.flushing ∧ (r.flushed = true → s'.tiles = s.tiles) ∧
          (r.flushed = false → ∀ t, t.inGrid = true →
            (t ∈ partTiles s P → (getTile s' t).mem = [] ∧ (getTile s' t).zeroising = true) ∧
            (t ∉ partTiles s P → getTile s' t = getTile s t))) ∧
      ((∃ e ∈ s.mesh.pkts, flushingPkt s e.2 = true ∧ some e.2.ctx = P.ctx) → exec (.contextFlushEnd p) s = .next s) ∧
      (r.flushed = true → (∃ t ∈ partTiles s P, (getTile s t).zeroising = true ∧ zeroClock s t = true) →
        exec (.contextResetDone p) s = .next s) ∧
      (r.flushed = true → (∃ f ∈ P.fields, fieldAlive s f = true ∧ (getField s f).hung = true) →
        exec (.contextResetDone p) s = .next s) ∧
      (r.flushed = true → s.boot.resetting = none → r.rollback = false →
        (∀ f ∈ P.fields, fieldAlive s f = true → (getField s f).hung = false) →
        (∀ t ∈ partTiles s P, ∀ g ∈ (getTile s t).raised, g < 14 ∧ g ≠ evEccUe) →
        (∀ t ∈ partTiles s P, (getTile s t).zeroising = false ∨ zeroClock s t = false) →
        ∃ s' : State, exec (.contextResetDone p) s = .next s' ∧ (getPart s' p).resetting = none ∧
          (getPart s' p).n = P.c.getD 0 ∧ (getPart s' p).taint = false ∧ (getPart s' p).launch = none ∧
          s'.boot.contexts = s.boot.contexts + 1 ∧
          (r.unbind = false → (getPart s' p).st = (if P.st = .running then .bound else P.st) ∧ (getPart s' p).ctx = P.ctx) ∧
          (r.unbind = true → P.st ≠ .outOfService → P.ctx ≠ none → (getPart s' p).st = .idle ∧ (getPart s' p).ctx = none) ∧
          (∀ t ∈ partTiles s P, (getTile s' t).run = false ∧ (getTile s' t).mem = [] ∧ (getTile s' t).g = [] ∧
            (getTile s' t).act = (getTile s t).act) ∧
          (∀ (h : Req) d, s.aceel.waiting = [⟨h, d, some p, []⟩] → (∀ t ∈ partTiles s P, (getTile s t).raised = []) →
            (∀ f, h.ep = .mailbox f → (getFn s f).busy = true) → s'.aceel.waiting = [] ∧ Replied s' h.ep (bareReply h 0)))) ∧
    (∀ x : BringUp, s.boot.resetting = some .compute → s.boot.st = .computeReset → s.clk.lost = false → x.reached = true →
      ∃ s' : State, exec (.computeResetDone x) s = .next s' ∧ s'.boot.st = .ready ∧ s'.boot.resetting = none ∧
        s'.boot.computes = s.boot.computes + 1 ∧ s'.dram.selfRefresh = false ∧ s'.dram.mem = s.dram.mem) ∧
    (∀ x : BringUp, s.boot.resetting = some .full → s.boot.st = .fullPending → (s.clk.goodA = true ∨ s.clk.goodB = true) →
      (x.reached = true → ∃ s' : State, exec (.fullResetDone x) s = .next s' ∧ s'.boot.st = .ready ∧ s'.boot.resetting = none ∧
        s'.boot.silent = false ∧ s'.boot.fulls = s.boot.fulls + 1) ∧
      (x.reached = false → ∃ s' : State, exec (.fullResetDone x) s = .next s' ∧ s'.boot.st = .fullPending ∧
        s'.boot.silent = false)) ∧
    (s.boot.resetting = some .compute → s.boot.st = .computeReset → ∃ s' : State, exec .resetEscalation s = .next s' ∧
      s'.boot.resetting = some .full ∧ s'.boot.st = .fullPending ∧ s'.mesh.pkts = []) ∧
    (s.boot.resetting = some .full → s.boot.st = .fullPending → ∃ s' : State, exec .resetEscalation s = .next s' ∧
      s'.boot.st = .failed ∧ s'.boot.silent = false)

/-- PWR_EN high starts a cold boot at step 1 with nothing in the tiles, the partitions or the DRAM; a latched fault keeps it off unless
PWR_EN has been low for 500 ms or the busbar below 20 V (log entry 99). Step 1 ends with PWR_GOOD high, and the links of ports whose
PERST# is high train. A boot without a reference, a boot master or an image that verifies is FAILED
at step 2, 3 or 4; any other is READY at step 9 when BOOT_READY comes, its granule 1,343 holding the Woad payload, where every channel
answers, and the rest of DRAM as it was (its place there is log entry 117, the two commands of a boot log entry 97); the death of the
boot master's field
begins it again, once, an unlock standing. PWR_EN low and FORCE_OFF_N low leave only flash, fuses and pins (R397 to R401, R404, R417,
R474, Table 16.1). -/
def Obligations.BootResults : Prop :=
  ∀ (s : State),
    (∀ x : BootFacts,
      (s.pins.pwrEn = true → exec (.pwrEnHigh x) s = .next s) ∧
      (s.pins.pwrEn = false → s.pins.faultLatched = true → x.lowLong = false →
        exec (.pwrEnHigh x) s = .next { s with pins := { s.pins with pwrEn := true } }) ∧
      (s.pins.pwrEn = false → (s.pins.faultLatched = false ∨ x.lowLong = true) → ∃ s' : State, exec (.pwrEnHigh x) s = .next s' ∧
        s'.power.on = true ∧ s'.pins.pwrEn = true ∧ s'.pins.pwrGood = false ∧ s'.pins.faultLatched = false ∧ s'.tiles = [] ∧
        s'.dram.mem = [] ∧ s'.parts = [] ∧ s'.sec.minSvn = s.sec.minSvn ∧ s'.sec.slots = s.sec.slots ∧
        s'.boot.st = .booting ∧ s'.boot.step = 1 ∧ s'.boot.facts = some x ∧ (portOf s' .a).linkUp = false ∧
        (portOf s' .b).linkUp = false)) ∧
    (∀ b : BootFacts, s.pending = [] → s.power.on = true → s.boot.st = .booting → s.boot.step = 1 → s.boot.facts = some b →
      s.tiles = [] → (portOf s .a).linkUp = false → (portOf s .b).linkUp = false →
      ∃ s' : State, step s = .next s' ∧ s'.boot.elapsed = s.boot.elapsed + 2 ∧
        (s.boot.elapsed + 2 < 120000000 → s'.boot.step = 1 ∧ s'.pins.pwrGood = s.pins.pwrGood) ∧
        (120000000 ≤ s.boot.elapsed + 2 → s'.boot.step = 2 ∧ s'.pins.pwrGood = true ∧ (portOf s' .a).linkUp = s.pins.perstA ∧
          (portOf s' .b).linkUp = s.pins.perstB)) ∧
    (∀ (x : BringUp) (b : BootFacts), s.power.on = true → s.boot.st = .booting → s.boot.facts = some b → x.reached = true →
      (s.boot.step = 2 → s.clk.goodA = false → s.clk.goodB = false →
        ∃ s' : State, exec (.bootReady x) s = .next s' ∧ s'.boot.st = .failed ∧ s'.boot.step = 2) ∧
      (s.boot.step = 3 → b.candidates = [] →
        ∃ s' : State, exec (.bootReady x) s = .next s' ∧ s'.boot.st = .failed ∧ s'.boot.step = 3) ∧
      (s.boot.step = 4 → b.imageOk = [] →
        ∃ s' : State, exec (.bootReady x) s = .next s' ∧ s'.boot.st = .failed ∧ s'.boot.step = 4) ∧
      (∀ r, r = reread (runBoot s b) x.rereads b → r.boot.st = .booting → r.clk.lost = false → s.dram.mem.wf = true →
        ∃ s' : State, exec (.bootReady x) s = .next s' ∧ s'.boot.st = .ready ∧ s'.boot.step = 9 ∧
          s'.dram.devKey = (s.sec.unlocking.isNone && decide (s.sec.dbg = 0)) ∧
          (∀ a, a < crashBase ∨ 1344 * 2 ^ 30 ≤ a → s'.dram.mem.byte a = s.dram.mem.byte a) ∧
          (x.badChannels = [] → (∀ ch < 224, chanShut r ch = false) →
            ∀ i, i < (woadPayload r).length → s'.dram.mem.byte (woadBase + i) = byteAt (woadPayload r) i))) ∧
    (∀ x : BringUp, s.power.on = false ∨ s.boot.st ≠ .booting ∨ x.reached = false → exec (.bootReady x) s = .next s) ∧
    (∀ f cause b, s.power.on = true → s.boot.st = .booting → s.boot.master = some f → s.boot.facts = some b → f ≤ 48 →
      fieldAlive s f = true →
      (s.boot.deaths = 0 → ∃ s' : State, exec (.fieldSupplyTrip f cause) s = .next s' ∧ s'.boot.st = .booting ∧ s'.boot.step = 1 ∧
        s'.boot.heldOff = [f] ∧ s'.boot.deaths = 1 ∧ s'.sec.dbg = s.sec.dbg ∧ s'.sec.unlocking = s.sec.unlocking ∧
        s'.clk.goodA = s.clk.goodA ∧ s'.clk.goodB = s.clk.goodB ∧ (∀ h, (portOf s' h).linkUp = (portOf s h).linkUp)) ∧
      (s.boot.deaths ≠ 0 → ∃ s' : State, exec (.fieldSupplyTrip f cause) s = .next s' ∧ s'.boot.st = .failed)) ∧
    (∃ s' : State, exec .pwrEnLow s = .next s' ∧ s'.power.on = false ∧ s'.pins.pwrEn = false ∧
      s'.pins.faultLatched = s.pins.faultLatched ∧
      s'.pins.thermtripN = true ∧ s'.tiles = [] ∧ s'.dram.mem = [] ∧ s'.sec.minSvn = s.sec.minSvn ∧ s'.sec.slots = s.sec.slots ∧
      s'.saved.copy0 = s.saved.copy0 ∧ s'.saved.copy1 = s.saved.copy1) ∧
    (∃ s' : State, exec .forceOffN s = .next s' ∧ s'.power.on = false ∧ s'.pins.forceOffN = false ∧ s'.tiles = [] ∧
      s'.dram.mem = [] ∧ s'.sec.minSvn = s.sec.minSvn)

/-! ### The whole machine -/

/-- Every command completes with a next state and leaves the commands that wait as they are; one whose condition does not hold changes
nothing, which is the model's choice (log entry 13).
No step stops the block, whatever commands are sent: from every state every number of steps is safe. -/
def Obligations.CommandsNeverStop : Prop :=
  (∀ (i : Instr) (s : State), ∃ s' : State, exec i s = .next s' ∧ s'.pending = s.pending) ∧
  (∀ (k : Nat) (s : State), SafeFor k s)

/-- Soundness is kept by every step from every sound state: the tiles, their memories and registers and the DRAM stay in
canonical form, g0 stays 0 (R80), the forced bits of TC_EVENT_EN stay 1 (R70) and TC_SEND_STALL stays at least 0x1000 (Table
2.12). -/
def Obligations.StepKeepsInvariant : Prop :=
  ∀ (s s' : State), s.ok = true → step s = .next s' → s'.ok = true

/-- The state after reset is sound; no command waits; the block is without power, holding nothing in its tiles, its DRAM and its
partitions (R379); in every tile TC_EVENT_EN stands at all ones (R70) and TC_SEND_STALL at 0x0040_0000 (Table 2.15). That nothing
is held before power is the model's choice where no table gives a value (log entries 10 and 20). -/
def Obligations.ResetIsSound : Prop :=
  State.reset.ok = true ∧ State.reset.pending = [] ∧ State.reset.power.on = false ∧ State.reset.tiles = [] ∧
    State.reset.dram.mem = [] ∧ State.reset.parts = [] ∧ State.reset.mesh.pkts = [] ∧ State.reset.sec.dbg = 0 ∧
    (∀ t, (getTile State.reset t).ok = true ∧ (getTile State.reset t).run = false ∧
      (getTile State.reset t).eventEn = 0x3FFF ∧ (getTile State.reset t).sendStall = 0x400000 ∧ (∀ r, (getTile State.reset t).getG r = 0) ∧
      (∀ a, (getTile State.reset t).mem.byte a = 0))

/-- The minimum SVN in force never falls, whatever is sent (R407). -/
def Obligations.MinSvnNeverFalls : Prop :=
  ∀ (s s' : State), step s = .next s' → minSvnOf s ≤ minSvnOf s'

/-- A memory in canonical form stays so under a store; the stored bytes read back, least significant address first, and every
other byte is as before. A write of g0 is discarded and g0 reads 0 (R80); another register reads back what was written. -/
def Obligations.ReadAfterWrite : Prop :=
  (∀ (m : Memory) (a : Nat) (l : List Byte), m.wf = true → (m.store a l).wf = true ∧ (m.store a l).bytes a l.length = l ∧
    (∀ b, b < a ∨ a + l.length ≤ b → (m.store a l).byte b = m.byte b)) ∧
  (∀ (T : Tile) (r q : Reg) (v : Word64), T.ok = true → (T.setG 0 v).getG 0 = 0 ∧
    (r ≠ 0 → (T.setG r v).getG r = v) ∧ (q ≠ r → (T.setG r v).getG q = T.getG q) ∧ (T.setG r v).ok = true)

/-- The words of Table 3.14 spell the instructions that it gives; a word whose reserved field is not zero spells none (R79). -/
def Obligations.TableWordsDecode : Prop :=
  ∀ t : XY,
    decodeTile t 0x000001C3 0x4A414000 = some (.mcfg t 3 9 9 5) ∧
    decodeTile t 0x00507043 0x00000000 = some (.mldb t ⟨7, false⟩ 8 false) ∧
    decodeTile t 0x008A4043 0x00010400 = some (.mma t 4 5 1024 true) ∧
    decodeTile t 0x00C00043 0x00000000 = some (.mswap t) ∧
    decodeTile t 0x008AE043 0x00010400 = some (.mma t 14 5 1024 true) ∧
    decodeTile t 0x0118B6C3 0x10000000 = some (.mdrain t ⟨13, none⟩ 11 12 2 false) ∧
    decodeTile t 0x00C000C3 0x00000000 = none

/-- What the codes stand for: an E2M1 code is one sign bit and the eight magnitudes of Table 4.3, in halves 0, 1, 2, 3, 4, 6, 8
and 12 (R112); a UE5M3 code is m·2^-17 with exponent field 0, (8 + m)·2^(E - 18) otherwise, and the invalid-block marker at 0xFF
(R115); an E8M0 code X is 2^(X - 127), and NaN at 0xFF (R116). -/
def Obligations.NumberFormatDecoding : Prop :=
  (∀ c, c < 16 → ∃ d, Elem.e2m1.dec c = .fin d ∧ d.neg = decide (8 ≤ c) ∧
    2 * d.num = d.den * [0, 1, 2, 3, 4, 6, 8, 12].getD (c % 8) 0) ∧
  ue5m3 0xFF = none ∧
  (∀ E m, E < 32 → m < 8 → 8 * E + m ≠ 0xFF → ∃ d, ue5m3 (8 * E + m) = some d ∧ d.neg = false ∧
    (E = 0 → 2 ^ 17 * d.num = d.den * m) ∧ (0 < E → 2 ^ 18 * d.num = d.den * ((8 + m) * 2 ^ E))) ∧
  e8m0 0xFF = none ∧
  (∀ X, X < 0xFF → ∃ d, e8m0 X = some d ∧ d.neg = false ∧ 2 ^ 127 * d.num = d.den * 2 ^ X)
end

