-- ==== Sys2Proof/Laws/Exec.lean ====
section
/-!
SUPPORT. One lemma per command: exec of it is its meaning. Proofs rewrite with these and never unfold the dispatch.
-/
namespace Sys2Proof.Machine

theorem exec_add (t : XY) (d : Reg) (sa : Reg) (sb : Reg) (s : State) : exec (.add t d sa sb) s = execAdd t d sa sb s := rfl
theorem exec_sub (t : XY) (d : Reg) (sa : Reg) (sb : Reg) (s : State) : exec (.sub t d sa sb) s = execSub t d sa sb s := rfl
theorem exec_and (t : XY) (d : Reg) (sa : Reg) (sb : Reg) (s : State) : exec (.and t d sa sb) s = execAnd t d sa sb s := rfl
theorem exec_or (t : XY) (d : Reg) (sa : Reg) (sb : Reg) (s : State) : exec (.or t d sa sb) s = execOr t d sa sb s := rfl
theorem exec_xor (t : XY) (d : Reg) (sa : Reg) (sb : Reg) (s : State) : exec (.xor t d sa sb) s = execXor t d sa sb s := rfl
theorem exec_sll (t : XY) (d : Reg) (sa : Reg) (sb : Reg) (s : State) : exec (.sll t d sa sb) s = execSll t d sa sb s := rfl
theorem exec_srl (t : XY) (d : Reg) (sa : Reg) (sb : Reg) (s : State) : exec (.srl t d sa sb) s = execSrl t d sa sb s := rfl
theorem exec_sra (t : XY) (d : Reg) (sa : Reg) (sb : Reg) (s : State) : exec (.sra t d sa sb) s = execSra t d sa sb s := rfl
theorem exec_slt (t : XY) (d : Reg) (sa : Reg) (sb : Reg) (s : State) : exec (.slt t d sa sb) s = execSlt t d sa sb s := rfl
theorem exec_sltu (t : XY) (d : Reg) (sa : Reg) (sb : Reg) (s : State) : exec (.sltu t d sa sb) s = execSltu t d sa sb s := rfl
theorem exec_min (t : XY) (d : Reg) (sa : Reg) (sb : Reg) (s : State) : exec (.min t d sa sb) s = execMin t d sa sb s := rfl
theorem exec_max (t : XY) (d : Reg) (sa : Reg) (sb : Reg) (s : State) : exec (.max t d sa sb) s = execMax t d sa sb s := rfl
theorem exec_minu (t : XY) (d : Reg) (sa : Reg) (sb : Reg) (s : State) : exec (.minu t d sa sb) s = execMinu t d sa sb s := rfl
theorem exec_maxu (t : XY) (d : Reg) (sa : Reg) (sb : Reg) (s : State) : exec (.maxu t d sa sb) s = execMaxu t d sa sb s := rfl
theorem exec_sel (t : XY) (d : Reg) (sa : Reg) (sb : Reg) (s : State) : exec (.sel t d sa sb) s = execSel t d sa sb s := rfl
theorem exec_mul (t : XY) (d : Reg) (sa : Reg) (sb : Reg) (s : State) : exec (.mul t d sa sb) s = execMul t d sa sb s := rfl
theorem exec_mulh (t : XY) (d : Reg) (sa : Reg) (sb : Reg) (s : State) : exec (.mulh t d sa sb) s = execMulh t d sa sb s := rfl
theorem exec_mulhu (t : XY) (d : Reg) (sa : Reg) (sb : Reg) (s : State) : exec (.mulhu t d sa sb) s = execMulhu t d sa sb s := rfl
theorem exec_div (t : XY) (d : Reg) (sa : Reg) (sb : Reg) (s : State) : exec (.div t d sa sb) s = execDiv t d sa sb s := rfl
theorem exec_divu (t : XY) (d : Reg) (sa : Reg) (sb : Reg) (s : State) : exec (.divu t d sa sb) s = execDivu t d sa sb s := rfl
theorem exec_rem (t : XY) (d : Reg) (sa : Reg) (sb : Reg) (s : State) : exec (.rem t d sa sb) s = execRem t d sa sb s := rfl
theorem exec_remu (t : XY) (d : Reg) (sa : Reg) (sb : Reg) (s : State) : exec (.remu t d sa sb) s = execRemu t d sa sb s := rfl
theorem exec_clz (t : XY) (d : Reg) (sa : Reg) (s : State) : exec (.clz t d sa) s = execClz t d sa s := rfl
theorem exec_popc (t : XY) (d : Reg) (sa : Reg) (s : State) : exec (.popc t d sa) s = execPopc t d sa s := rfl
theorem exec_addi (t : XY) (d : Reg) (sa : Reg) (imm : Imm) (s : State) : exec (.addi t d sa imm) s = execAddi t d sa imm s := rfl
theorem exec_andi (t : XY) (d : Reg) (sa : Reg) (imm : Imm) (s : State) : exec (.andi t d sa imm) s = execAndi t d sa imm s := rfl
theorem exec_ori (t : XY) (d : Reg) (sa : Reg) (imm : Imm) (s : State) : exec (.ori t d sa imm) s = execOri t d sa imm s := rfl
theorem exec_xori (t : XY) (d : Reg) (sa : Reg) (imm : Imm) (s : State) : exec (.xori t d sa imm) s = execXori t d sa imm s := rfl
theorem exec_slli (t : XY) (d : Reg) (sa : Reg) (imm : Imm) (s : State) : exec (.slli t d sa imm) s = execSlli t d sa imm s := rfl
theorem exec_srli (t : XY) (d : Reg) (sa : Reg) (imm : Imm) (s : State) : exec (.srli t d sa imm) s = execSrli t d sa imm s := rfl
theorem exec_srai (t : XY) (d : Reg) (sa : Reg) (imm : Imm) (s : State) : exec (.srai t d sa imm) s = execSrai t d sa imm s := rfl
theorem exec_slti (t : XY) (d : Reg) (sa : Reg) (imm : Imm) (s : State) : exec (.slti t d sa imm) s = execSlti t d sa imm s := rfl
theorem exec_lih (t : XY) (d : Reg) (sa : Reg) (x : Ext) (s : State) : exec (.lih t d sa x) s = execLih t d sa x s := rfl
theorem exec_beq (t : XY) (sa : Reg) (sb : Reg) (off : Off12) (s : State) : exec (.beq t sa sb off) s = execBeq t sa sb off s := rfl
theorem exec_bne (t : XY) (sa : Reg) (sb : Reg) (off : Off12) (s : State) : exec (.bne t sa sb off) s = execBne t sa sb off s := rfl
theorem exec_blt (t : XY) (sa : Reg) (sb : Reg) (off : Off12) (s : State) : exec (.blt t sa sb off) s = execBlt t sa sb off s := rfl
theorem exec_bge (t : XY) (sa : Reg) (sb : Reg) (off : Off12) (s : State) : exec (.bge t sa sb off) s = execBge t sa sb off s := rfl
theorem exec_bltu (t : XY) (sa : Reg) (sb : Reg) (off : Off12) (s : State) : exec (.bltu t sa sb off) s = execBltu t sa sb off s := rfl
theorem exec_bgeu (t : XY) (sa : Reg) (sb : Reg) (off : Off12) (s : State) : exec (.bgeu t sa sb off) s = execBgeu t sa sb off s := rfl
theorem exec_jal (t : XY) (d : Reg) (off : Off12) (s : State) : exec (.jal t d off) s = execJal t d off s := rfl
theorem exec_jalr (t : XY) (d : Reg) (sa : Reg) (off : Off12) (s : State) : exec (.jalr t d sa off) s = execJalr t d sa off s := rfl
theorem exec_lb (t : XY) (d : Reg) (sa : Reg) (imm : Imm) (up : Upset) (s : State) : exec (.lb t d sa imm up) s = execLb t d sa imm up s := rfl
theorem exec_lh (t : XY) (d : Reg) (sa : Reg) (imm : Imm) (up : Upset) (s : State) : exec (.lh t d sa imm up) s = execLh t d sa imm up s := rfl
theorem exec_lw (t : XY) (d : Reg) (sa : Reg) (imm : Imm) (up : Upset) (s : State) : exec (.lw t d sa imm up) s = execLw t d sa imm up s := rfl
theorem exec_ld (t : XY) (d : Reg) (sa : Reg) (imm : Imm) (up : Upset) (s : State) : exec (.ld t d sa imm up) s = execLd t d sa imm up s := rfl
theorem exec_lbu (t : XY) (d : Reg) (sa : Reg) (x : Ext) (up : Upset) (s : State) : exec (.lbu t d sa x up) s = execLbu t d sa x up s := rfl
theorem exec_lhu (t : XY) (d : Reg) (sa : Reg) (x : Ext) (up : Upset) (s : State) : exec (.lhu t d sa x up) s = execLhu t d sa x up s := rfl
theorem exec_lwu (t : XY) (d : Reg) (sa : Reg) (x : Ext) (up : Upset) (s : State) : exec (.lwu t d sa x up) s = execLwu t d sa x up s := rfl
theorem exec_sb (t : XY) (d : Sent) (sa : Reg) (imm : Imm) (s : State) : exec (.sb t d sa imm) s = execSb t d sa imm s := rfl
theorem exec_sh (t : XY) (d : Sent) (sa : Reg) (imm : Imm) (s : State) : exec (.sh t d sa imm) s = execSh t d sa imm s := rfl
theorem exec_sw (t : XY) (d : Sent) (sa : Reg) (imm : Imm) (s : State) : exec (.sw t d sa imm) s = execSw t d sa imm s := rfl
theorem exec_sd (t : XY) (d : Sent) (sa : Reg) (imm : Imm) (s : State) : exec (.sd t d sa imm) s = execSd t d sa imm s := rfl
theorem exec_gld (t : XY) (d : Reg) (sa : Reg) (off : Off24) (u : Bool) (sz : Size2) (s : State) : exec (.gld t d sa off u sz) s = execGld t d sa off u sz s := rfl
theorem exec_gst (t : XY) (d : Reg) (sa : Reg) (off : Off24) (sz : Size2) (s : State) : exec (.gst t d sa off sz) s = execGst t d sa off sz s := rfl
theorem exec_gdmaGet (t : XY) (d : Reg) (sa : Reg) (sb : Reg) (s : State) : exec (.gdmaGet t d sa sb) s = execGdmaGet t d sa sb s := rfl
theorem exec_gdmaPut (t : XY) (d : Reg) (sa : Reg) (sb : Reg) (s : State) : exec (.gdmaPut t d sa sb) s = execGdmaPut t d sa sb s := rfl
theorem exec_vadd (t : XY) (d : Reg) (sa : Reg) (sb : Reg) (ty : Ty) (s : State) : exec (.vadd t d sa sb ty) s = execVadd t d sa sb ty s := rfl
theorem exec_vsub (t : XY) (d : Reg) (sa : Reg) (sb : Reg) (ty : Ty) (s : State) : exec (.vsub t d sa sb ty) s = execVsub t d sa sb ty s := rfl
theorem exec_vmul (t : XY) (d : Reg) (sa : Reg) (sb : Reg) (ty : Ty) (s : State) : exec (.vmul t d sa sb ty) s = execVmul t d sa sb ty s := rfl
theorem exec_vfma (t : XY) (d : Reg) (sa : Reg) (sb : Reg) (ty : Ty) (s : State) : exec (.vfma t d sa sb ty) s = execVfma t d sa sb ty s := rfl
theorem exec_vmax (t : XY) (d : Reg) (sa : Reg) (sb : Reg) (ty : Ty) (s : State) : exec (.vmax t d sa sb ty) s = execVmax t d sa sb ty s := rfl
theorem exec_vmin (t : XY) (d : Reg) (sa : Reg) (sb : Reg) (ty : Ty) (s : State) : exec (.vmin t d sa sb ty) s = execVmin t d sa sb ty s := rfl
theorem exec_vabs (t : XY) (d : Reg) (sa : Reg) (ty : Ty) (s : State) : exec (.vabs t d sa ty) s = execVabs t d sa ty s := rfl
theorem exec_vneg (t : XY) (d : Reg) (sa : Reg) (ty : Ty) (s : State) : exec (.vneg t d sa ty) s = execVneg t d sa ty s := rfl
theorem exec_vand (t : XY) (d : Reg) (sa : Reg) (sb : Reg) (ty : Ty) (s : State) : exec (.vand t d sa sb ty) s = execVand t d sa sb ty s := rfl
theorem exec_vor (t : XY) (d : Reg) (sa : Reg) (sb : Reg) (ty : Ty) (s : State) : exec (.vor t d sa sb ty) s = execVor t d sa sb ty s := rfl
theorem exec_vxor (t : XY) (d : Reg) (sa : Reg) (sb : Reg) (ty : Ty) (s : State) : exec (.vxor t d sa sb ty) s = execVxor t d sa sb ty s := rfl
theorem exec_vsll (t : XY) (d : Reg) (sa : Reg) (sb : Reg) (ty : Ty) (s : State) : exec (.vsll t d sa sb ty) s = execVsll t d sa sb ty s := rfl
theorem exec_vsrl (t : XY) (d : Reg) (sa : Reg) (sb : Reg) (ty : Ty) (s : State) : exec (.vsrl t d sa sb ty) s = execVsrl t d sa sb ty s := rfl
theorem exec_vsra (t : XY) (d : Reg) (sa : Reg) (sb : Reg) (ty : Ty) (s : State) : exec (.vsra t d sa sb ty) s = execVsra t d sa sb ty s := rfl
theorem exec_vsel (t : XY) (d : Reg) (sa : Reg) (sb : Reg) (ty : Ty) (s : State) : exec (.vsel t d sa sb ty) s = execVsel t d sa sb ty s := rfl
theorem exec_vcmplt (t : XY) (d : Reg) (sa : Reg) (sb : Reg) (ty : Ty) (s : State) : exec (.vcmplt t d sa sb ty) s = execVcmplt t d sa sb ty s := rfl
theorem exec_vbcast (t : XY) (d : Reg) (sa : Reg) (ty : Ty) (s : State) : exec (.vbcast t d sa ty) s = execVbcast t d sa ty s := rfl
theorem exec_vext (t : XY) (d : Reg) (sa : Reg) (sb : Reg) (ty : Ty) (s : State) : exec (.vext t d sa sb ty) s = execVext t d sa sb ty s := rfl
theorem exec_vmov (t : XY) (d : Reg) (sa : Reg) (ty : Ty) (s : State) : exec (.vmov t d sa ty) s = execVmov t d sa ty s := rfl
theorem exec_vld (t : XY) (d : Reg) (sa : Reg) (x : Ext) (up : Upset) (s : State) : exec (.vld t d sa x up) s = execVld t d sa x up s := rfl
theorem exec_vst (t : XY) (d : Sent) (sa : Reg) (x : Ext) (s : State) : exec (.vst t d sa x) s = execVst t d sa x s := rfl
theorem exec_vqz (t : XY) (d : Reg) (sa : Reg) (sb : Reg) (fmt : FmtCode) (rnd : Bool) (sty : Ty) (gs : Reg) (s : State) : exec (.vqz t d sa sb fmt rnd sty gs) s = execVqz t d sa sb fmt rnd sty gs s := rfl
theorem exec_vdq (t : XY) (d : Reg) (sa : Reg) (sb : Reg) (fmt : FmtCode) (dty : Ty) (gs : Reg) (s : State) : exec (.vdq t d sa sb fmt dty gs) s = execVdq t d sa sb fmt dty gs s := rfl
theorem exec_vamax (t : XY) (d : Reg) (sa : Reg) (sty : Ty) (s : State) : exec (.vamax t d sa sty) s = execVamax t d sa sty s := rfl
theorem exec_vupdc (t : XY) (d : Reg) (sa : Reg) (sb : Reg) (s : State) : exec (.vupdc t d sa sb) s = execVupdc t d sa sb s := rfl
theorem exec_vcvt (t : XY) (d : Reg) (sa : Reg) (rnd : Bool) (sty : Ty) (dty : Ty) (s : State) : exec (.vcvt t d sa rnd sty dty) s = execVcvt t d sa rnd sty dty s := rfl
theorem exec_mcfg (t : XY) (d : Reg) (fmtA : FmtCode) (fmtB : FmtCode) (tag : Byte) (s : State) : exec (.mcfg t d fmtA fmtB tag) s = execMcfg t d fmtA fmtB tag s := rfl
theorem exec_mldb (t : XY) (sa : Got) (sb : Reg) (acc : Bool) (s : State) : exec (.mldb t sa sb acc) s = execMldb t sa sb acc s := rfl
theorem exec_mma (t : XY) (sa : Reg) (sb : Reg) (k : Half) (z : Bool) (s : State) : exec (.mma t sa sb k z) s = execMma t sa sb k z s := rfl
theorem exec_mswap (t : XY) (s : State) : exec (.mswap t) s = execMswap t s := rfl
theorem exec_mdrain (t : XY) (d : Sent) (sa : Reg) (sb : Reg) (fmt : FmtCode) (rnd : Bool) (s : State) : exec (.mdrain t d sa sb fmt rnd) s = execMdrain t d sa sb fmt rnd s := rfl
theorem exec_matrixQueueHead (t : XY) (s : State) : exec (.matrixQueueHead t) s = execMatrixQueueHead t s := rfl
theorem exec_mmaStart (t : XY) (s : State) : exec (.mmaStart t) s = execMmaStart t s := rfl
theorem exec_mmaComplete (t : XY) (bad : List BadBlock) (flips : List (Nat × Word32)) (s : State) : exec (.mmaComplete t bad flips) s = execMmaComplete t bad flips s := rfl
theorem exec_mdrainComplete (t : XY) (s : State) : exec (.mdrainComplete t) s = execMdrainComplete t s := rfl
theorem exec_qopen (t : XY) (d : Reg) (sa : Reg) (sb : Reg) (ch : Chan) (pin : Bool) (s : State) : exec (.qopen t d sa sb ch pin) s = execQopen t d sa sb ch pin s := rfl
theorem exec_qsend (t : XY) (d : Reg) (sa : Reg) (sb : Reg) (ch : Chan) (s : State) : exec (.qsend t d sa sb ch) s = execQsend t d sa sb ch s := rfl
theorem exec_qwait (t : XY) (d : Got) (q : QNum) (s : State) : exec (.qwait t d q) s = execQwait t d q s := rfl
theorem exec_qpeek (t : XY) (d : Got) (q : QNum) (s : State) : exec (.qpeek t d q) s = execQpeek t d q s := rfl
theorem exec_qpop (t : XY) (d : Got) (q : QNum) (s : State) : exec (.qpop t d q) s = execQpop t d q s := rfl
theorem exec_qclose (t : XY) (d : Reg) (ch : Chan) (s : State) : exec (.qclose t d ch) s = execQclose t d ch s := rfl
theorem exec_sendStall (t : XY) (s : State) : exec (.sendStall t) s = execSendStall t s := rfl
theorem exec_msgInjected (t : XY) (s : State) : exec (.msgInjected t) s = execMsgInjected t s := rfl
theorem exec_closeSend (t : XY) (ch : Chan) (s : State) : exec (.closeSend t ch) s = execCloseSend t ch s := rfl
theorem exec_responseTimeout (t : XY) (k : TimerKind) (s : State) : exec (.responseTimeout t k) s = execResponseTimeout t k s := rfl
theorem exec_sget (t : XY) (d : Reg) (p : Port) (h : Bool) (gk : Reg) (s : State) : exec (.sget t d p h gk) s = execSget t d p h gk s := rfl
theorem exec_sput (t : XY) (d : Reg) (p : Port) (h : Bool) (fin : Bool) (s : State) : exec (.sput t d p h fin) s = execSput t d p h fin s := rfl
theorem exec_sgetm (t : XY) (d : Sent) (sa : Reg) (sb : Reg) (p : Port) (s : State) : exec (.sgetm t d sa sb p) s = execSgetm t d sa sb p s := rfl
theorem exec_sputm (t : XY) (d : Reg) (sa : Reg) (sb : Reg) (p : Port) (fin : Bool) (s : State) : exec (.sputm t d sa sb p fin) s = execSputm t d sa sb p fin s := rfl
theorem exec_spass (t : XY) (d : Reg) (sb : Reg) (p : Port) (q : Port) (s : State) : exec (.spass t d sb p q) s = execSpass t d sb p q s := rfl
theorem exec_streamDmaComplete (t : XY) (k : Nat) (s : State) : exec (.streamDmaComplete t k) s = execStreamDmaComplete t k s := rfl
theorem exec_sgetmLineFlush (t : XY) (k : Nat) (s : State) : exec (.sgetmLineFlush t k) s = execSgetmLineFlush t k s := rfl
theorem exec_tokenArrival (t : XY) (p : Port) (err : TokenErr) (s : State) : exec (.tokenArrival t p err) s = execTokenArrival t p err s := rfl
theorem exec_routedForward (t : XY) (p : Port) (s : State) : exec (.routedForward t p) s = execRoutedForward t p s := rfl
theorem exec_creditReturn (t : XY) (p : Port) (crpErr : Bool) (s : State) : exec (.creditReturn t p crpErr) s = execCreditReturn t p crpErr s := rfl
theorem exec_detourLineWrite (t : XY) (s : State) : exec (.detourLineWrite t) s = execDetourLineWrite t s := rfl
theorem exec_detourMarkerRelease (t : XY) (s : State) : exec (.detourMarkerRelease t) s = execDetourMarkerRelease t s := rfl
theorem exec_csw (t : XY) (d : Reg) (slot : Reg) (s : State) : exec (.csw t d slot) s = execCsw t d slot s := rfl
theorem exec_cload (t : XY) (d : Reg) (sa : Got) (slot : Reg) (s : State) : exec (.cload t d sa slot) s = execCload t d sa slot s := rfl
theorem exec_cloadComplete (t : XY) (s : State) : exec (.cloadComplete t) s = execCloadComplete t s := rfl
theorem exec_configTokenSend (t : XY) (s : State) : exec (.configTokenSend t) s = execConfigTokenSend t s := rfl
theorem exec_configToken (t : XY) (p : Port) (s : State) : exec (.configToken t p) s = execConfigToken t p s := rfl
theorem exec_cflush (t : XY) (d : Reg) (slot : Reg) (s : State) : exec (.cflush t d slot) s = execCflush t d slot s := rfl
theorem exec_cflushQ (t : XY) (d : Got) (slot : Reg) (s : State) : exec (.cflushQ t d slot) s = execCflushQ t d slot s := rfl
theorem exec_epoch (t : XY) (d : Reg) (mask : Reg) (slot : Reg) (s : State) : exec (.epoch t d mask slot) s = execEpoch t d mask slot s := rfl
theorem exec_autoSwitch (t : XY) (s : State) : exec (.autoSwitch t) s = execAutoSwitch t s := rfl
theorem exec_step (t : XY) (d : Reg) (s : State) : exec (.step t d) s = execStep t d s := rfl
theorem exec_stepRelease (p : PartId) (s : State) : exec (.stepRelease p) s = execStepRelease p s := rfl
theorem exec_rotationWindow (p : PartId) (crcBad : List Nat) (s : State) : exec (.rotationWindow p crcBad) s = execRotationWindow p crcBad s := rfl
theorem exec_phase (t : XY) (ix : Reg) (s : State) : exec (.phase t ix) s = execPhase t ix s := rfl
theorem exec_gtc (t : XY) (d : Reg) (s : State) : exec (.gtc t d) s = execGtc t d s := rfl
theorem exec_evt (t : XY) (sa : Reg) (s : State) : exec (.evt t sa) s = execEvt t sa s := rfl
theorem exec_fence (t : XY) (d : Reg) (mode : Reg) (s : State) : exec (.fence t d mode) s = execFence t d mode s := rfl
theorem exec_fenceComplete (t : XY) (s : State) : exec (.fenceComplete t) s = execFenceComplete t s := rfl
theorem exec_halt (t : XY) (s : State) : exec (.halt t) s = execHalt t s := rfl
theorem exec_tcCtrlWrite (t : XY) (val : Word64) (s : State) : exec (.tcCtrlWrite t val) s = execTcCtrlWrite t val s := rfl
theorem exec_tcSlotWrite (t : XY) (n : SlotNum) (val : Word64) (s : State) : exec (.tcSlotWrite t n val) s = execTcSlotWrite t n val s := rfl
theorem exec_tcEventWrite (t : XY) (val : Word64) (s : State) : exec (.tcEventWrite t val) s = execTcEventWrite t val s := rfl
theorem exec_tcRngSeedHiWrite (t : XY) (val : Word64) (s : State) : exec (.tcRngSeedHiWrite t val) s = execTcRngSeedHiWrite t val s := rfl
theorem exec_tcSendStallWrite (t : XY) (val : Word64) (s : State) : exec (.tcSendStallWrite t val) s = execTcSendStallWrite t val s := rfl
theorem exec_registerWrite (t : XY) (own : Bool) (off : Half) (val : Word64) (s : State) : exec (.registerWrite t own off val) s = execRegisterWrite t own off val s := rfl
theorem exec_zeroiseDone (t : XY) (s : State) : exec (.zeroiseDone t) s = execZeroiseDone t s := rfl
theorem exec_correctionWriteback (t : XY) (row : Nat) (s : State) : exec (.correctionWriteback t row) s = execCorrectionWriteback t row s := rfl
theorem exec_scrubRead (site : SiteId) (bank : Nat) (up : Upset) (s : State) : exec (.scrubRead site bank up) s = execScrubRead site bank up s := rfl
theorem exec_readReq (pid : Nat) (s : State) : exec (.readReq pid) s = execReadReq pid s := rfl
theorem exec_writeReq (pid : Nat) (s : State) : exec (.writeReq pid) s = execWriteReq pid s := rfl
theorem exec_readRsp (pid : Nat) (s : State) : exec (.readRsp pid) s = execReadRsp pid s := rfl
theorem exec_writeAck (pid : Nat) (s : State) : exec (.writeAck pid) s = execWriteAck pid s := rfl
theorem exec_errorRsp (pid : Nat) (s : State) : exec (.errorRsp pid) s = execErrorRsp pid s := rfl
theorem exec_msg (pid : Nat) (s : State) : exec (.msg pid) s = execMsg pid s := rfl
theorem exec_msgAck (pid : Nat) (s : State) : exec (.msgAck pid) s = execMsgAck pid s := rfl
theorem exec_openReq (pid : Nat) (s : State) : exec (.openReq pid) s = execOpenReq pid s := rfl
theorem exec_openRsp (pid : Nat) (s : State) : exec (.openRsp pid) s = execOpenRsp pid s := rfl
theorem exec_closeReq (pid : Nat) (s : State) : exec (.closeReq pid) s = execCloseReq pid s := rfl
theorem exec_closeRsp (pid : Nat) (s : State) : exec (.closeRsp pid) s = execCloseRsp pid s := rfl
theorem exec_trainForward (pid : Nat) (err : TrainErr) (ctlpErr : Bool) (s : State) : exec (.trainForward pid err ctlpErr) s = execTrainForward pid err ctlpErr s := rfl
theorem exec_contextFlushEnd (p : PartId) (s : State) : exec (.contextFlushEnd p) s = execContextFlushEnd p s := rfl
theorem exec_dramRequest (pid : Nat) (errs : List LineErr) (s : State) : exec (.dramRequest pid errs) s = execDramRequest pid errs s := rfl
theorem exec_refreshWindow (dc : Nat) (bank : RefreshBank) (active : Bool) (s : State) : exec (.refreshWindow dc bank active) s = execRefreshWindow dc bank active s := rfl
theorem exec_calibrationWindow (ch : Nat) (active : Bool) (s : State) : exec (.calibrationWindow ch active) s = execCalibrationWindow ch active s := rfl
theorem exec_patrolScrub (ch : Nat) (err : LineErr) (s : State) : exec (.patrolScrub ch err) s = execPatrolScrub ch err s := rfl
theorem exec_channelFailure (ch : Nat) (s : State) : exec (.channelFailure ch) s = execChannelFailure ch s := rfl
theorem exec_commitWithdrawal (p : PartId) (s : State) : exec (.commitWithdrawal p) s = execCommitWithdrawal p s := rfl
theorem exec_hostWindowRequest (pid : Nat) (s : State) : exec (.hostWindowRequest pid) s = execHostWindowRequest pid s := rfl
theorem exec_hostCompletion (port : HPort) (tag : Nat) (res : HostRes) (s : State) : exec (.hostCompletion port tag res) s = execHostCompletion port tag res s := rfl
theorem exec_bar2Request (f : Fn) (off : Nat) (len : Nat) (data : Option (List Byte)) (s : State) : exec (.bar2Request f off len data) s = execBar2Request f off len data s := rfl
theorem exec_sqTailDoorbell (f : Fn) (qp : Nat) (tail : Nat) (cmds : List (List Byte)) (s : State) : exec (.sqTailDoorbell f qp tail cmds) s = execSqTailDoorbell f qp tail cmds s := rfl
theorem exec_cqHeadDoorbell (f : Fn) (qp : Nat) (head : Nat) (s : State) : exec (.cqHeadDoorbell f qp head) s = execCqHeadDoorbell f qp head s := rfl
theorem exec_completionEntry (port : HPort) (qp : Nat) (s : State) : exec (.completionEntry port qp) s = execCompletionEntry port qp s := rfl
theorem exec_completionInterrupt (port : HPort) (qp : Nat) (s : State) : exec (.completionInterrupt port qp) s = execCompletionInterrupt port qp s := rfl
theorem exec_loadConfig (port : HPort) (qp : Nat) (host : List Byte) (s : State) : exec (.loadConfig port qp host) s = execLoadConfig port qp host s := rfl
theorem exec_launch (port : HPort) (qp : Nat) (s : State) : exec (.launch port qp) s = execLaunch port qp s := rfl
theorem exec_launchComplete (p : PartId) (s : State) : exec (.launchComplete p) s = execLaunchComplete p s := rfl
theorem exec_copy (port : HPort) (qp : Nat) (host : List Byte) (s : State) : exec (.copy port qp host) s = execCopy port qp host s := rfl
theorem exec_stepCommit (port : HPort) (qp : Nat) (s : State) : exec (.stepCommit port qp) s = execStepCommit port qp s := rfl
theorem exec_sqFence (port : HPort) (qp : Nat) (s : State) : exec (.sqFence port qp) s = execSqFence port qp s := rfl
theorem exec_signal (port : HPort) (qp : Nat) (s : State) : exec (.signal port qp) s = execSignal port qp s := rfl
theorem exec_signalOnStep (port : HPort) (qp : Nat) (cid : Nat) (s : State) : exec (.signalOnStep port qp cid) s = execSignalOnStep port qp cid s := rfl
theorem exec_perst (port : HPort) (s : State) : exec (.perst port) s = execPerst port s := rfl
theorem exec_perstRelease (port : HPort) (s : State) : exec (.perstRelease port) s = execPerstRelease port s := rfl
theorem exec_hostWindowRegion (w : WReq) (ix : Nat) (sub : Nat) (data : List Byte) (s : State) : exec (.hostWindowRegion w ix sub data) s = execHostWindowRegion w ix sub data s := rfl
theorem exec_createPartition (w : WReq) (data : List Byte) (s : State) : exec (.createPartition w data) s = execCreatePartition w data s := rfl
theorem exec_releasePartition (w : WReq) (data : List Byte) (s : State) : exec (.releasePartition w data) s = execReleasePartition w data s := rfl
theorem exec_movePartition (w : WReq) (data : List Byte) (s : State) : exec (.movePartition w data) s = execMovePartition w data s := rfl
theorem exec_transferPartition (w : WReq) (data : List Byte) (s : State) : exec (.transferPartition w data) s = execTransferPartition w data s := rfl
theorem exec_bindContext (w : WReq) (data : List Byte) (s : State) : exec (.bindContext w data) s = execBindContext w data s := rfl
theorem exec_unbindContext (w : WReq) (data : List Byte) (s : State) : exec (.unbindContext w data) s = execUnbindContext w data s := rfl
theorem exec_createQueuePair (w : WReq) (data : List Byte) (s : State) : exec (.createQueuePair w data) s = execCreateQueuePair w data s := rfl
theorem exec_deleteQueuePair (w : WReq) (data : List Byte) (s : State) : exec (.deleteQueuePair w data) s = execDeleteQueuePair w data s := rfl
theorem exec_allocateGranules (w : WReq) (data : List Byte) (s : State) : exec (.allocateGranules w data) s = execAllocateGranules w data s := rfl
theorem exec_releaseGranules (w : WReq) (data : List Byte) (s : State) : exec (.releaseGranules w data) s = execReleaseGranules w data s := rfl
theorem exec_interleaveMode (w : WReq) (data : List Byte) (s : State) : exec (.interleaveMode w data) s = execInterleaveMode w data s := rfl
theorem exec_queueSetup (w : WReq) (data : List Byte) (s : State) : exec (.queueSetup w data) s = execQueueSetup w data s := rfl
theorem exec_slotMode (w : WReq) (sub : Nat) (data : List Byte) (s : State) : exec (.slotMode w sub data) s = execSlotMode w sub data s := rfl
theorem exec_reconfigurationMode (w : WReq) (sub : Nat) (data : List Byte) (s : State) : exec (.reconfigurationMode w sub data) s = execReconfigurationMode w sub data s := rfl
theorem exec_scaleTableDescriptor (w : WReq) (sub : Nat) (data : List Byte) (s : State) : exec (.scaleTableDescriptor w sub data) s = execScaleTableDescriptor w sub data s := rfl
theorem exec_scaleTableSnapshot (w : WReq) (sub : Nat) (unstable : List Nat) (s : State) : exec (.scaleTableSnapshot w sub unstable) s = execScaleTableSnapshot w sub unstable s := rfl
theorem exec_clearHistograms (w : WReq) (data : List Byte) (s : State) : exec (.clearHistograms w data) s = execClearHistograms w data s := rfl
theorem exec_protectedRegions (w : WReq) (sub : Nat) (data : List Byte) (s : State) : exec (.protectedRegions w sub data) s = execProtectedRegions w sub data s := rfl
theorem exec_connectionDescriptor (w : WReq) (ix : Nat) (sub : Nat) (data : List Byte) (s : State) : exec (.connectionDescriptor w ix sub data) s = execConnectionDescriptor w ix sub data s := rfl
theorem exec_aperture (w : WReq) (ix : Nat) (sub : Nat) (data : List Byte) (s : State) : exec (.aperture w ix sub data) s = execAperture w ix sub data s := rfl
theorem exec_preferredReference (w : WReq) (data : List Byte) (s : State) : exec (.preferredReference w data) s = execPreferredReference w data s := rfl
theorem exec_siteTest (w : WReq) (data : List Byte) (s : State) : exec (.siteTest w data) s = execSiteTest w data s := rfl
theorem exec_fieldTest (w : WReq) (data : List Byte) (s : State) : exec (.fieldTest w data) s = execFieldTest w data s := rfl
theorem exec_dramCalibrationRequest (w : WReq) (data : List Byte) (s : State) : exec (.dramCalibrationRequest w data) s = execDramCalibrationRequest w data s := rfl
theorem exec_testResult (k : Nat) (res : TestRes) (ochre : Byte) (failed : List (SiteId × SiteFault)) (s : State) : exec (.testResult k res ochre failed) s = execTestResult k res ochre failed s := rfl
theorem exec_clearLatchedClasses (w : WReq) (data : List Byte) (s : State) : exec (.clearLatchedClasses w data) s = execClearLatchedClasses w data s := rfl
theorem exec_contextResetWrite (w : WReq) (data : List Byte) (s : State) : exec (.contextResetWrite w data) s = execContextResetWrite w data s := rfl
theorem exec_computeResetWrite (w : WReq) (data : List Byte) (s : State) : exec (.computeResetWrite w data) s = execComputeResetWrite w data s := rfl
theorem exec_fullResetWrite (w : WReq) (data : List Byte) (s : State) : exec (.fullResetWrite w data) s = execFullResetWrite w data s := rfl
theorem exec_contextResetDone (p : PartId) (s : State) : exec (.contextResetDone p) s = execContextResetDone p s := rfl
theorem exec_computeResetDone (facts : BringUp) (s : State) : exec (.computeResetDone facts) s = execComputeResetDone facts s := rfl
theorem exec_fullResetDone (facts : BringUp) (s : State) : exec (.fullResetDone facts) s = execFullResetDone facts s := rfl
theorem exec_resetEscalation (s : State) : exec (.resetEscalation) s = execResetEscalation s := rfl
theorem exec_aceelRead (h : Req) (s : State) : exec (.aceelRead h) s = execAceelRead h s := rfl
theorem exec_aceelWrite (h : Req) (data : List Byte) (s : State) : exec (.aceelWrite h data) s = execAceelWrite h data s := rfl
theorem exec_readBlock (h : Req) (s : State) : exec (.readBlock h) s = execReadBlock h s := rfl
theorem exec_writeBlock (h : Req) (data : List Byte) (s : State) : exec (.writeBlock h data) s = execWriteBlock h data s := rfl
theorem exec_subscribe (h : Req) (period : Word32) (s : State) : exec (.subscribe h period) s = execSubscribe h period s := rfl
theorem exec_notify (ep : Endpoint) (ix : Nat) (sub : Nat) (s : State) : exec (.notify ep ix sub) s = execNotify ep ix sub s := rfl
theorem exec_snapshotExpiry (ep : Endpoint) (s : State) : exec (.snapshotExpiry ep) s = execSnapshotExpiry ep s := rfl
theorem exec_stagingExpiry (ep : Endpoint) (s : State) : exec (.stagingExpiry ep) s = execStagingExpiry ep s := rfl
theorem exec_hcMboxGo (f : Fn) (frame : List Byte) (s : State) : exec (.hcMboxGo f frame) s = execHcMboxGo f frame s := rfl
theorem exec_hcMboxDone (f : Fn) (s : State) : exec (.hcMboxDone f) s = execHcMboxDone f s := rfl
theorem exec_hcMboxNotify (f : Fn) (s : State) : exec (.hcMboxNotify f) s = execHcMboxNotify f s := rfl
theorem exec_mailboxResponse (f : Fn) (s : State) : exec (.mailboxResponse f) s = execMailboxResponse f s := rfl
theorem exec_setEndpointId (m : MctpIn) (eid : Byte) (s : State) : exec (.setEndpointId m eid) s = execSetEndpointId m eid s := rfl
theorem exec_getEndpointId (m : MctpIn) (s : State) : exec (.getEndpointId m) s = execGetEndpointId m s := rfl
theorem exec_getMctpVersionSupport (m : MctpIn) (s : State) : exec (.getMctpVersionSupport m) s = execGetMctpVersionSupport m s := rfl
theorem exec_getMessageTypeSupport (m : MctpIn) (s : State) : exec (.getMessageTypeSupport m) s = execGetMessageTypeSupport m s := rfl
theorem exec_getVendorDefinedMessageSupport (m : MctpIn) (s : State) : exec (.getVendorDefinedMessageSupport m) s = execGetVendorDefinedMessageSupport m s := rfl
theorem exec_getVersion (m : MctpIn) (s : State) : exec (.getVersion m) s = execGetVersion m s := rfl
theorem exec_getCapabilities (m : MctpIn) (s : State) : exec (.getCapabilities m) s = execGetCapabilities m s := rfl
theorem exec_negotiateAlgorithms (m : MctpIn) (s : State) : exec (.negotiateAlgorithms m) s = execNegotiateAlgorithms m s := rfl
theorem exec_getDigests (m : MctpIn) (s : State) : exec (.getDigests m) s = execGetDigests m s := rfl
theorem exec_getCertificate (m : MctpIn) (slot : Nat) (off : Nat) (len : Nat) (s : State) : exec (.getCertificate m slot off len) s = execGetCertificate m slot off len s := rfl
theorem exec_challenge (m : MctpIn) (slot : Nat) (nonce : List Byte) (s : State) : exec (.challenge m slot nonce) s = execChallenge m slot nonce s := rfl
theorem exec_getMeasurements (m : MctpIn) (ix : Nat) (nonce : List Byte) (s : State) : exec (.getMeasurements m ix nonce) s = execGetMeasurements m ix nonce s := rfl
theorem exec_neighborSolicitation (node : Option Nat) (target : List Byte) (s : State) : exec (.neighborSolicitation node target) s = execNeighborSolicitation node target s := rfl
theorem exec_pauseFrame (eth : Nat) (s : State) : exec (.pauseFrame eth) s = execPauseFrame eth s := rfl
theorem exec_xdtMsg (eth : Nat) (fr : XFrame) (s : State) : exec (.xdtMsg eth fr) s = execXdtMsg eth fr s := rfl
theorem exec_xdtWrite (eth : Nat) (fr : XFrame) (s : State) : exec (.xdtWrite eth fr) s = execXdtWrite eth fr s := rfl
theorem exec_xdtReadReq (eth : Nat) (fr : XFrame) (s : State) : exec (.xdtReadReq eth fr) s = execXdtReadReq eth fr s := rfl
theorem exec_xdtReadRsp (eth : Nat) (fr : XFrame) (s : State) : exec (.xdtReadRsp eth fr) s = execXdtReadRsp eth fr s := rfl
theorem exec_xdtAck (eth : Nat) (fr : XFrame) (s : State) : exec (.xdtAck eth fr) s = execXdtAck eth fr s := rfl
theorem exec_xdtNak (eth : Nat) (fr : XFrame) (s : State) : exec (.xdtNak eth fr) s = execXdtNak eth fr s := rfl
theorem exec_xdtCnp (eth : Nat) (fr : XFrame) (s : State) : exec (.xdtCnp eth fr) s = execXdtCnp eth fr s := rfl
theorem exec_xdtFrameSend (conn : Nat) (s : State) : exec (.xdtFrameSend conn) s = execXdtFrameSend conn s := rfl
theorem exec_ackTimer (conn : Nat) (s : State) : exec (.ackTimer conn) s = execAckTimer conn s := rfl
theorem exec_retransmissionTimeout (conn : Nat) (s : State) : exec (.retransmissionTimeout conn) s = execRetransmissionTimeout conn s := rfl
theorem exec_restartTimer (conn : Nat) (s : State) : exec (.restartTimer conn) s = execRestartTimer conn s := rfl
theorem exec_autoRestart (conn : Nat) (s : State) : exec (.autoRestart conn) s = execAutoRestart conn s := rfl
theorem exec_rateIncrease (conn : Nat) (s : State) : exec (.rateIncrease conn) s = execRateIncrease conn s := rfl
theorem exec_apertureRequest (pid : Nat) (s : State) : exec (.apertureRequest pid) s = execApertureRequest pid s := rfl
theorem exec_ptpEventMessage (eth : Nat) (ev : PtpEvent) (s : State) : exec (.ptpEventMessage eth ev) s = execPtpEventMessage eth ev s := rfl
theorem exec_ethernetLinkChange (eth : Nat) (up : Bool) (lanes : Byte) (s : State) : exec (.ethernetLinkChange eth up lanes) s = execEthernetLinkChange eth up lanes s := rfl
theorem exec_referenceLoss (which : RefClk) (s : State) : exec (.referenceLoss which) s = execReferenceLoss which s := rfl
theorem exec_cclkRestart (p : PartId) (s : State) : exec (.cclkRestart p) s = execCclkRestart p s := rfl
theorem exec_pllLockTimeout (p : PartId) (f : Nat) (s : State) : exec (.pllLockTimeout p f) s = execPllLockTimeout p f s := rfl
theorem exec_syncPulse (seen : List (Nat × Int)) (s : State) : exec (.syncPulse seen) s = execSyncPulse seen s := rfl
theorem exec_syncPulseMissing (s : State) : exec (.syncPulseMissing) s = execSyncPulseMissing s := rfl
theorem exec_governorCycle (m : GovMeas) (s : State) : exec (.governorCycle m) s = execGovernorCycle m s := rfl
theorem exec_energyInterval (m : EnergyMeas) (s : State) : exec (.energyInterval m) s = execEnergyInterval m s := rfl
theorem exec_inputFault (s : State) : exec (.inputFault) s = execInputFault s := rfl
theorem exec_emergencyCap (s : State) : exec (.emergencyCap) s = execEmergencyCap s := rfl
theorem exec_converterFailure (s : State) : exec (.converterFailure) s = execConverterFailure s := rfl
theorem exec_fieldSupplyTrip (f : Nat) (cause : TripCause) (s : State) : exec (.fieldSupplyTrip f cause) s = execFieldSupplyTrip f cause s := rfl
theorem exec_droopTrip (f : Nat) (det : Nat) (s : State) : exec (.droopTrip f det) s = execDroopTrip f det s := rfl
theorem exec_droopRamp (f : Nat) (blk : Nat) (s : State) : exec (.droopRamp f blk) s = execDroopRamp f blk s := rfl
theorem exec_thermalReading (temps : List (SiteId × Nat)) (s : State) : exec (.thermalReading temps) s = execThermalReading temps s := rfl
theorem exec_thermalRecovery (f : Nat) (s : State) : exec (.thermalRecovery f) s = execThermalRecovery f s := rfl
theorem exec_blockClockRestart (f : Nat) (blk : Nat) (s : State) : exec (.blockClockRestart f blk) s = execBlockClockRestart f blk s := rfl
theorem exec_laneCompareStep (bundle : Nat) (disagree : Bool) (s : State) : exec (.laneCompareStep bundle disagree) s = execLaneCompareStep bundle disagree s := rfl
theorem exec_walkStepDue (g : Nat) (crcBad : List Nat) (s : State) : exec (.walkStepDue g crcBad) s = execWalkStepDue g crcBad s := rfl
theorem exec_forcedRotationWindow (p : PartId) (crcBad : List Nat) (s : State) : exec (.forcedRotationWindow p crcBad) s = execForcedRotationWindow p crcBad s := rfl
theorem exec_visitComplete (f : Nat) (row : Nat) (v : VisitRes) (fmax : List (Nat × Nat)) (s : State) : exec (.visitComplete f row v fmax) s = execVisitComplete f row v fmax s := rfl
theorem exec_eventForward (t : XY) (bit : Nat) (s : State) : exec (.eventForward t bit) s = execEventForward t bit s := rfl
theorem exec_heartbeat (heard : List Nat) (s : State) : exec (.heartbeat heard) s = execHeartbeat heard s := rfl
theorem exec_controllerHang (f : Nat) (s : State) : exec (.controllerHang f) s = execControllerHang f s := rfl
theorem exec_bootMasterFailover (s : State) : exec (.bootMasterFailover) s = execBootMasterFailover s := rfl
theorem exec_pwrEnHigh (facts : BootFacts) (s : State) : exec (.pwrEnHigh facts) s = execPwrEnHigh facts s := rfl
theorem exec_bootReady (facts : BringUp) (s : State) : exec (.bootReady facts) s = execBootReady facts s := rfl
theorem exec_pwrEnLow (s : State) : exec (.pwrEnLow) s = execPwrEnLow s := rfl
theorem exec_forceOffN (s : State) : exec (.forceOffN) s = execForceOffN s := rfl
theorem exec_imageWrite (w : WReq) (image : List Byte) (s : State) : exec (.imageWrite w image) s = execImageWrite w image s := rfl
theorem exec_commitSvn (w : WReq) (data : List Byte) (s : State) : exec (.commitSvn w data) s = execCommitSvn w data s := rfl
theorem exec_ownerKeySlot (w : WReq) (sub : Nat) (data : List Byte) (s : State) : exec (.ownerKeySlot w sub data) s = execOwnerKeySlot w sub data s := rfl
theorem exec_debugPolicy (w : WReq) (data : List Byte) (s : State) : exec (.debugPolicy w data) s = execDebugPolicy w data s := rfl
theorem exec_setSlot (w : WReq) (data : List Byte) (s : State) : exec (.setSlot w data) s = execSetSlot w data s := rfl
theorem exec_clearSlot (w : WReq) (data : List Byte) (s : State) : exec (.clearSlot w data) s = execClearSlot w data s := rfl
theorem exec_setDebugPolicy (w : WReq) (data : List Byte) (s : State) : exec (.setDebugPolicy w data) s = execSetDebugPolicy w data s := rfl
theorem exec_restoreDefaults (w : WReq) (data : List Byte) (s : State) : exec (.restoreDefaults w data) s = execRestoreDefaults w data s := rfl
theorem exec_debugUnlock (key : List Byte) (sig : List Byte) (s : State) : exec (.debugUnlock key sig) s = execDebugUnlock key sig s := rfl
theorem exec_unlockComplete (s : State) : exec (.unlockComplete) s = execUnlockComplete s := rfl
theorem exec_referenceReturn (which : RefClk) (s : State) : exec (.referenceReturn which) s = execReferenceReturn which s := rfl
theorem exec_operatingPointCclkStop (p : PartId) (s : State) : exec (.operatingPointCclkStop p) s = execOperatingPointCclkStop p s := rfl
theorem exec_mldbAccComplete (t : XY) (s : State) : exec (.mldbAccComplete t) s = execMldbAccComplete t s := rfl
theorem exec_detourLineRead (t : XY) (s : State) : exec (.detourLineRead t) s = execDetourLineRead t s := rfl
theorem exec_controllerRestarted (f : Nat) (s : State) : exec (.controllerRestarted f) s = execControllerRestarted f s := rfl
theorem exec_hcAperture (f : Fn) (val : Word64) (s : State) : exec (.hcAperture f val) s = execHcAperture f val s := rfl
theorem exec_functionReset (f : Fn) (s : State) : exec (.functionReset f) s = execFunctionReset f s := rfl
theorem exec_vfEnable (port : HPort) (n : Nat) (s : State) : exec (.vfEnable port n) s = execVfEnable port n s := rfl

end Sys2Proof.Machine
end

