-- ==== Sys2Proof/Tests/Slice0.lean ====
section
/-!
SUPPORT. Tests: ill-formed commands that WellFormed refuses; words and worked examples of the spec; and, for every statement
with hypotheses, concrete states and operands that meet them (test_meets_<Name>), at boundary values where a range has one.
-/
namespace Sys2Proof.Tests
open Sys2Proof Sys2Proof.Machine

-- One proof after the other: each evaluates in the kernel, and many at once would each hold a thread.
set_option Elab.async false

/-! ### Small states -/

def t0 : XY := ⟨0, 0⟩
def t1 : XY := ⟨1, 0⟩
/-- A field whose PLLs are locked. -/
def locked : Field := { pllC := true, pllF := true }
/-- A powered block that is READY, with this tile at (0, 0). -/
def node (T : Tile) : State :=
  { tiles := [(0, T)], fields := [(0, locked), (18, locked), (24, locked), (48, locked)], power := { on := true }
    boot := { st := .ready, candidates := [24, 18] }, clk := { active := some .a } }
/-- The same with a second tile at (1, 0). -/
def two (T U : Tile) : State := { node T with tiles := [(0, T), (1, U)] }
/-- The same with field 0 in partition 0. -/
def held (P : Part) (T : Tile) : State := { node T with parts := [(0, { P with w := 1, h := 1 })] }
/-- A tile whose core runs. -/
def core : Tile := { run := true, st := .run }
def after (o : Host.Outcome State Fault Refusal) : State :=
  match o with
  | .next s => s
  | .fault _ => {}
  | .refused _ => {}
/-- A mailbox write of the PF of port A. -/
def wr : WReq := ⟨.mailbox ⟨.a, 0⟩, 0, true⟩
def frame0 : XFrame := ⟨true, false, false, false, false, 0, 0, 0, 0, t0, 0, 0, 0, 0, 0, 0, 0, [], .good, 0, false, false, false⟩

/-! ### Well-formedness: one ill-formed term for each check -/

theorem test_wf_tile : (Instr.add ⟨111, 111⟩ 31 31 31).wf = true ∧ (Instr.add ⟨112, 0⟩ 1 2 3).wf = false ∧
    (Instr.halt ⟨0, 112⟩).wf = false := by decide
theorem test_wf_numbers : (Instr.stepRelease 49).wf = false ∧ (Instr.correctionWriteback t0 49152).wf = false ∧
    (Instr.responseTimeout t0 (.transaction 64)).wf = false ∧ (Instr.scrubRead ⟨0, 16, 0⟩ 0 .none).wf = false ∧
    (Instr.scrubRead ⟨48, 15, 16⟩ 24 .none).wf = false ∧ (Instr.refreshWindow 28 ⟨0, 0⟩ true).wf = false ∧
    (Instr.calibrationWindow 224 true).wf = false ∧ (Instr.walkStepDue 8 []).wf = false ∧
    (Instr.droopTrip 49 0).wf = false ∧ (Instr.droopTrip 48 64).wf = false ∧ (Instr.eventForward t0 14).wf = false ∧
    (Instr.laneCompareStep 127512 true).wf = false ∧ (Instr.ackTimer 4096).wf = false ∧
    (Instr.pauseFrame 16).wf = false := by decide
theorem test_wf_requests : (Instr.hcMboxDone ⟨.a, 32⟩).wf = false ∧ (Instr.launch .a 256).wf = false ∧
    (Instr.signalOnStep .a 0 65536).wf = false ∧ (Instr.hostCompletion .a 65536 .timeout).wf = false ∧
    (Instr.createPartition ⟨.mctp .a 256, 0, true⟩ []).wf = false ∧
    (Instr.createPartition ⟨.mailbox ⟨.a, 0⟩, 65536, true⟩ []).wf = false ∧
    (Instr.aceelRead ⟨.fw, 256, 0, 0, 0, 0, 0, 0, 0, true, {}⟩).wf = false ∧
    (Instr.aceelRead ⟨.fw, 1, 0, 0, 0, 0, 0, 2 ^ 32, 0, true, {}⟩).wf = false ∧
    (Instr.xdtMsg 0 { frame0 with psn := 2 ^ 32 }).wf = false ∧ (Instr.xdtMsg 0 { frame0 with dtile := ⟨128, 0⟩ }).wf = false ∧
    (Instr.sqTailDoorbell ⟨.a, 0⟩ 0 0 [zeros 65]).wf = false := by decide
theorem test_wf_facts :
    (Instr.computeResetDone ⟨[(⟨49, 0, 0⟩, 1, 0)], [], [], [], [], [], [], 0, true, []⟩).wf = false ∧
    (Instr.bootReady ⟨[], [], [224], [], [], [], [], 0, true, []⟩).wf = false ∧
    (Instr.bootReady ⟨[], [], [], [], [], [], [], 0, true, [⟨0, 16, 0⟩]⟩).wf = false ∧ (Instr.getEndpointId ⟨.a, 32, none⟩).wf = false ∧
    (Instr.pwrEnHigh ⟨false, true, true, [49], [], [], 3, 3, false⟩).wf = false ∧
    (Instr.thermalReading [(⟨0, 0, 17⟩, 25)]).wf = false := by decide

/-! ### Examples that the spec works out -/

/-- The worked site name after Table 0.3 and Table 1.6: tile (37, 70) with the excluded site of F30 row 6 at PC3 and at PC9. -/
theorem test_example_site : siteOf { rows := [(16 * 30 + 6, { e := 3 })] } ⟨37, 70⟩ = ⟨30, 6, 6⟩ ∧
    siteOf { rows := [(16 * 30 + 6, { e := 9 })] } ⟨37, 70⟩ = ⟨30, 6, 5⟩ := by decide
/-- Table 4.8: eight BF16 values, divided by the tile scale 0.5, as one XF4 block. -/
theorem test_example_vqz : (match blockedFmt 9 with
    | some f => quantBlock f 0x3F000000 false (List.replicate 8 0)
        ([0x3EA0, 0xBF90, 0x3D40, 0x4018, 0xBF20, 0x0000, 0x3FE0, 0xC050].map Wide.bf16.dec)
    | none => (0, [])) = (0x79, [0x1, 0xC, 0x0, 0x6, 0xA, 0x0, 0x5, 0xF]) := by decide +kernel
/-- Table 5.2: the accumulator 3,000,000.0 plus the term -0.984375 is stored as 2,999,999.0. -/
theorem test_example_accumulate : (addXa32 ((255 + 21) * 2 ^ 22 + (3000000 * 2 - 2 ^ 22)) (some ⟨true, 63, -6⟩)).1 =
    (255 + 21) * 2 ^ 22 + (2999999 * 2 - 2 ^ 22) := by decide +kernel
/-- Table 6.3: updates 1, 25 and 26 of a weight of 1.0 by 5 × 2^-15. -/
theorem test_example_updc : updc 0x3F80 0 0x39200000 = (0x3F80, 5) ∧ updc 0x3F80 120 0x39200000 = (0x3F80, 125) ∧
    updc 0x3F80 125 0x39200000 = (0x3F81, 0x82) := by decide +kernel
/-- The example of R228: address 0x0100_0123_4A40 in HASH mode lies in row 20 of channel 24. -/
theorem test_example_dram : dramMap {} 0x010001234A40 = (20, 24) := by decide
/-- The example of Table 9.7: the word 0x9C3A_51E7 in partition F30 gives the intermediate (37, 73). -/
theorem test_example_valiant :
    valiantMid { parts := [(0, { st := .bound, fx := 2, fy := 4, w := 1, h := 1 })] } ⟨37, 70⟩ 0x9C3A51E7 = ⟨37, 73⟩ := by decide
/-- The detour example after Table 9.7: F24 dead, from (20, 56) to (111, 54). -/
theorem test_example_detour : routeOf { power := { on := true }, fields := [(24, { power := .offShort })] } false ⟨20, 56⟩ ⟨111, 54⟩ none =
    .detour ⟨20, 64⟩ := by decide +kernel
/-- Table 9.14: RP 0x1C000, WP 0x1F400 in a ring of 64 KiB; 5,000 bytes take a pad of 3,072 and a record of 5,056. -/
theorem test_example_landing : recBytes 5000 = 5056 ∧ recBytes 8192 = 8256 ∧
    ({ base := 0x8000, log2 := 16, maxmsg := 8192, wp := 0x1F400, rp := 0x1C000 } : Queue).place 5056 = (0, 3072) := by decide
/-- The RANGE answer of the example of Table 13.11. -/
theorem test_example_aceel : reply ⟨.udp 0 0xC101, 1, 0, 0x2803, 0, 0, 0x17, 0, 0, true, {}⟩ 5 1568 [] =
    [0x81, 0x00, 0x03, 0x28, 0x00, 0x05, 0x17, 0x00, 0x20, 0x06, 0, 0, 0, 0, 0, 0] := by decide
/-- The example of R395: 40,000 µJ of 17.6 parts with a loss of 2.1. -/
theorem test_example_loss : lossShare 2100 40000 17600 = 4773 := by decide

/-! ### The statements' hypotheses are met -/

theorem test_meets_StepRunsFrontCommand : ({ node core with pending := [.halt t0, .gtc t0 1] } : State).pending =
    Instr.halt t0 :: [.gtc t0 1] := rfl

def fetchCore : Tile :=
  { core with slots := [(0, { valid := true, ibuf := [(0, 0x000001C3), (1, 0x4A414000), (4095, 0x00C000C3)] })] }
set_option maxRecDepth 8000 in
theorem test_meets_StepFetches : State.reset.pending = [] ∧ State.reset.power.on = false ∧ (node {}).power.on = true ∧
    XY.ofKey (node {}).turn = t0 ∧ canIssue (tickTime { node {} with turn := 1 }) t0 = false ∧
    canIssue (tickTime { node fetchCore with turn := 1 }) t0 = true ∧
    fetchCore.fetch 0 = 0x000001C3 ∧ fetchCore.fetch 1 = 0x4A414000 ∧ fetchCore.fetch 4095 = 0x00C000C3 ∧
    decodeTile t0 0x000001C3 0x4A414000 = some (.mcfg t0 3 9 9 5) ∧ decodeTile t0 0x00C000C3 0 = none ∧
    0 + tileWords (0x000001C3 : Word32) ≤ 4096 ∧ 4094 + tileWords (0x00C000C3 : Word32) ≤ 4096 := by
  refine ⟨by decide, by decide, by decide, by decide, by decide, by decide, by decide, by decide, by decide, by decide,
    by decide, by decide, by decide⟩
theorem test_meets_ScalarRegisterResults : (node core).ok = true ∧ Issues (node core) t0 1 [1, 2, 31] :=
  ⟨by decide, by decide, by decide, by decide⟩
theorem test_meets_ScalarImmediateResults : (node { core with pc := 4094 }).ok = true ∧
    Issues (node { core with pc := 4094 }) t0 1 [1, 2] ∧ Issues (node { core with pc := 4094 }) t0 2 [1, 2] :=
  ⟨by decide, ⟨by decide, by decide, by decide⟩, by decide, by decide, by decide⟩
theorem test_meets_BranchTargets : (node { core with pc := 4095 }).ok = true ∧
    Issues (node { core with pc := 4095 }) t0 1 [1, 2, 3] := ⟨by decide, by decide, by decide, by decide⟩
theorem test_meets_IssueRules : (Instr.halt t0).issuer = some t0 ∧ canIssue (node {}) t0 = false ∧ (node core).ok = true ∧
    t0.inGrid = true ∧ canIssue (node { core with await := [1] }) t0 = true ∧ (1 : Reg) ∈ ({ core with await := [1] } : Tile).await ∧
    canIssue (node { core with pc := 4096 }) t0 = true ∧ canIssue (node { core with pc := 4095 }) t0 = true := by decide

/-- A core whose g1 is a. -/
def at1 (a : Word64) : Tile := { core with g := [(1, a)] }
theorem test_meets_LoadStoreResults : (node (at1 0x2FFFF8)).ok = true ∧ PadFree (at1 0x2FFFF8) ∧
    PadAddr ((at1 0x2FFFF8).getG 1 + (Imm.short 0).value).toNat 8 ∧ PadAddr ((at1 0x2FFFF8).getG 1 + (4#32).signExtend 64).toNat 4 ∧
    Clean (at1 0x2FFFF8) 0x2FFFF8 8 ∧ Issues (node (at1 0x2FFFF8)) t0 1 [2, 1] ∧ Issues (node (at1 0x2FFFF8)) t0 2 [2, 1] :=
  ⟨by decide, ⟨rfl, by decide⟩, ⟨by decide, by decide⟩, ⟨by decide, by decide⟩, fun _ _ _ => rfl,
    ⟨by decide, by decide, by decide⟩, by decide, by decide, by decide⟩
theorem test_meets_ControlBlockAccess : (node (at1 0x3F0000)).ok = true ∧
    ((at1 0x3F0000).getG 1 + (Imm.short 0x68).value).toNat = 0x3F0000 + 0x68 ∧ (0x68 : Nat) % 8 = 0 ∧
    Issues (node (at1 0x3F0000)) t0 1 [2, 1] := ⟨by decide, by decide, rfl, by decide, by decide, by decide⟩
theorem test_meets_AccessFaults : ((at1 0x300000).getG 1 + (Imm.short 0xFFF).value).toNat % 2 ≠ 0 ∧
    0x400000 ≤ ((at1 0x400000).getG 1 + (Imm.short 0).value).toNat ∧ PadAddr ((at1 8).getG 1 + (Imm.short 0).value).toNat 8 ∧
    mfind ({ at1 8 with ecc := [(1, .bad)] } : Tile).ecc 1 = some .bad ∧ (node { at1 8 with ecc := [(1, .bad)] }).ok = true ∧
    2 ^ 52 ≤ ((at1 0x10000000000000).getG 1 + (0#24).signExtend 64).toNat ∧
    Issues (node (at1 0x10000000000000)) t0 2 [2, 1, 1] ∧ Issues (node { at1 8 with ecc := [(1, .bad)] }) t0 1 [2, 1] :=
  ⟨by decide, by decide, ⟨by decide, by decide⟩, by decide, by decide, by decide, ⟨by decide, by decide, by decide⟩,
    by decide, by decide, by decide⟩
theorem test_meets_GlobalAccessResults : endpoint (node (at1 0x400000)) 0x400000 = some (t1, .tile) ∧
    ((at1 0x400000).getG 1 + (0#24).signExtend 64).toNat = 0x400000 ∧ (node (at1 0x400000)).ok = true ∧
    routeOf (node (at1 0x400000)) false t0 t1 none ≠ .unreachable ∧ freeTag (at1 0x400000) = some 0 ∧
    gdmaOk 0 0x400000 524288 = true ∧ (at1 0x400000).tx.length + (524288 + 8191) / 8192 ≤ 64 ∧
    Issues (node (at1 0x400000)) t0 2 [2, 1, 3] :=
  ⟨by decide, by decide, by decide, by decide, by decide, by decide, by decide, by decide, by decide, by decide⟩
theorem test_meets_VectorLaneResults : (node core).ok = true ∧ Issues (node core) t0 1 [] ∧ floatTy 0 = some .bf16 ∧
    floatTy 2 = some .fp32 := ⟨by decide, ⟨by decide, by decide, by decide⟩, by decide, by decide⟩
theorem test_meets_BitwiseAndUndefinedEncodings : (node core).ok = true ∧ Issues (node core) t0 1 [1, 2, 3] ∧
    Issues (node core) t0 1 [] ∧ Issues (node core) t0 2 [1, 2] :=
  ⟨by decide, ⟨by decide, by decide, by decide⟩, ⟨by decide, by decide, by decide⟩, by decide, by decide, by decide⟩
theorem test_meets_VectorMemoryResults : (node (at1 0x2FFFC0)).ok = true ∧ PadFree (at1 0x2FFFC0) ∧
    PadAddr ((at1 0x2FFFC0).getG 1 + (0#32).signExtend 64).toNat 64 ∧ Clean (at1 0x2FFFC0) 0x2FFFC0 64 ∧
    Issues (node (at1 0x2FFFC0)) t0 2 [1] :=
  ⟨by decide, ⟨rfl, by decide⟩, ⟨by decide, by decide⟩, fun _ _ _ => rfl, by decide, by decide, by decide⟩
theorem test_meets_ConversionResults : (node core).ok = true ∧ (blockedFmt 3).isSome = true ∧ (blockedFmt 0x0C).isSome = true ∧
    floatTy 2 = some .fp32 ∧ floatTy 1 = some .fp16 ∧ pairOk .fp32 2 = true ∧ pairOk .fp16 3 = true ∧
    Issues (node core) t0 2 [1, 2, 3] := ⟨by decide, by decide, by decide, by decide, by decide, by decide, by decide,
    by decide, by decide, by decide⟩
/-- A core whose matrix engine has B staged and a head entry. -/
def mat0 (q : List MatCmd) : Tile := { core with mat := { staged := some (0, 0), queue := q } }
theorem test_meets_MatrixIssueResults : (node (mat0 [])).ok = true ∧ matFull (mat0 []).mat = false ∧
    (matView (node (mat0 [])) (mat0 [])).staged = some (0, 0) ∧
    (matView (node (mat0 [])) (mat0 [])).pass (matView (node (mat0 [])) (mat0 [])).fill ≠ some true ∧
    32768 % (fmtD (matView (node (mat0 [])) (mat0 [])).fmtA).block = 0 ∧ operandBytes (fmtD 2) 16384 ≤ 0x300000 ∧
    (matView (node core) core).staged = none ∧ Issues (node (mat0 [])) t0 2 [1, 2, 3] :=
  ⟨by decide, by decide, by decide, by decide, by decide, by decide, by decide, by decide, by decide, by decide⟩

def passing : Tile := { core with mat := { pass0 := some ⟨false, 63, 0, List.replicate 64 0⟩ } }
theorem test_meets_MatrixDrainResults : (node core).ok = true ∧ (fmtOf 2).isSome = true ∧ matFull core.mat = false ∧
    bankAwaits core.mat true = false ∧ core.mat.pass true = none ∧ Issues (node core) t0 2 [1, 2, 3] ∧
    (node passing).ok = true ∧ passing.mat.pass false = some ⟨false, 63, 0, List.replicate 64 0⟩ ∧
    (getSite (node passing) (siteOf (node passing) t0)).lastMismatch = none ∧ partOf (node passing) t0 = none :=
  ⟨by decide, by decide, by decide, by decide, by decide, ⟨by decide, by decide, by decide⟩, by decide, by decide, by decide,
    by decide⟩
/-- Both clauses at the end of a pass occur. -/
theorem test_meets_MatrixDrainResults_pass :
    subCodes (passing.mat.bank false) 63 = (List.replicate 64 (0 : Word32)).map (·.toNat) ∧
    subCodes (passing.mat.bank false) 63 ≠ (List.replicate 64 (1 : Word32)).map (·.toNat) := by decide +kernel

def engine (q : List MatCmd) (p : Option Pass) : State :=
  { node { mat0 q with mat := { (mat0 q).mat with pass0 := p, drain := [⟨⟨1, none⟩, 0, false, false, 64, [7]⟩], accLoad := [(true, 0, false)] } } with
    fields := [(0, { locked with cyc := 15 })] }
theorem test_meets_MatrixEngineResults :
    (engine [.mma false 0 0 32 true []] none).ok = true ∧ unitRuns (engine [.mma false 0 0 32 true []] none) t0 = true ∧
    ((getField (engine [] none) 0).cyc.toNat % 16 * issueCap (engine [] none) t0) % 16 < issueCap (engine [] none) t0 ∧
    (getTile (engine [.mma false 0 0 32 false []] passing.mat.pass0) t0).mat.pass false = some ⟨false, 63, 0, List.replicate 64 0⟩ ∧
    (getTile (engine [] none) t0).mat.lastSub < 64 ∧ (engine [.swap] none).ok = true ∧
    (let s : State := { engine [] none with blocks := [(0, { droop := 8 })], fields := [(0, { locked with cyc := 1 })] }
     issueCap s t0 ≤ ((getField s 0).cyc.toNat % 16 * issueCap s t0) % 16) := by decide
def running : Tile := { core with mat := { running := some ⟨false, 0, 0, 0, 0, 32, 2, 2, []⟩ } }
theorem test_meets_MatrixEngineResults_end : (node running).ok = true ∧ unitRuns (node running) t0 = true ∧
    running.mat.running = some ⟨false, 0, 0, 0, 0, 32, 2, 2, running.mem⟩ ∧ running.ecc = [] := by decide

/-- A queue of 4,096 bytes with one record of 64 from tile (1, 0), behind a pad. -/
def queued : Tile :=
  { core with mem := [(0, 48), (7, 1), (64, 5), (68, 1), (70, 3)], qu := { qs := [(15, { log2 := 12, maxmsg := 64, wp := 128 })] } }
theorem test_meets_ReceiveQueueResults : (two queued core).ok = true ∧ mrising queued.qu.qs = true ∧
    queued.headRec (queued.skipPad (queued.getQ 15)) = some ⟨64, false, t1, 3, none, none⟩ ∧ (queued.skipPad (queued.getQ 0)).used = 0 ∧
    routeOf (two queued core) true t0 t1 none ≠ .unreachable ∧ queued.multi = false ∧
    ({ queued with multi := true } : Tile).activeSlot.qmask.getLsbD 15 = false ∧ Issues (two queued core) t0 2 [1] :=
  ⟨by decide, by decide, by decide, by decide, by decide, by decide, by decide, by decide, by decide, by decide⟩

/-- Channel 5 open to queue 3 of tile (1, 0), window 64, with credit for one record of 64 bytes. -/
def chan (st : ChanState) (credit : Nat) : SendChan := { st := st, dst := t1, queue := 3, pin := true, win := 64, credit := credit }
def sender (st : ChanState) (credit : Nat) : Tile :=
  { core with g := [(1, 49153), (3, 48)], qu := { chans := [(5, chan st credit)] } }
theorem test_meets_SendChannelResults : (held { st := .bound } (sender .opened 64)).ok = true ∧ (sender .opened 64).getChan 5 = chan .opened 64 ∧
    Issues (held { st := .bound } (sender .opened 64)) t0 2 [2, 1, 3] ∧ ((sender .opened 64).getChan 31).st = .free ∧
    ((sender .free 0).getG 1).toNat = t1.x + 128 * t1.y + 16384 * (3#4).toNat ∧ tileLive (held { st := .bound } (sender .opened 64)) t1 = true ∧
    partOf (held { st := .bound } core) t0 = some 0 ∧ partOf (held { st := .bound } core) t1 = some 0 ∧
    routeOf (held { st := .bound } core) false t0 t1 none ≠ .unreachable ∧ ((sender .opened 64).getG 2).toNat % 64 = 0 ∧
    64 * ((((sender .opened 64).getG 3).toNat + 16 + 63) / 64) ≤ (chan .opened 64).credit :=
  ⟨by decide, by decide, ⟨by decide, by decide, by decide⟩, by decide, by decide, by decide, by decide, by decide, by decide,
    by decide, by decide⟩
def stalled : Tile := { sender .opened 0 with st := .wait, qu := { (sender .opened 0).qu with held := some (2, 5, 0, 48) } }
def sending : Tile :=
  { sender .opened 64 with tx := [(63, ⟨.gst [], 0, 8, [0], false⟩)], qu := { (sender .opened 64).qu with out := [⟨2, 5, 0, 48, 0, true, .direct⟩] } }
theorem test_meets_QueueTimerResults : (two stalled core).ok = true ∧ tileLive (two stalled core) t0 = true ∧
    canIssue (two stalled core) t0 = true ∧ (chan .opened 0).credit < 64 * ((48 + 16 + 63) / 64) ∧
    unitRuns (two sending core) t0 = true ∧ chanEnd (two sending core) (chan .opened 64) = some (t1, .tile) ∧
    routeOf (two sending core) false t0 t1 none ≠ .unreachable ∧ partHeld (two sending core) t0 = false ∧
    mfind sending.tx 63 = some ⟨.gst [], 0, 8, [0], false⟩ ∧ (chan .closing 128).credit = recBytes 64 ∧
    chanEnd (two sending core) (chan .closing 128) = some (t1, .tile) ∧ mrising (sender .opening 0).qu.chans = true := by decide

def tok (k : BitVec 2) : Token := ⟨7, k, parOf 7, 0, 0⟩
/-- Port E is an output of the core, port W an input with one token; W is also the way to nothing. -/
def streamer : Tile :=
  { core with slots := [(0, { outMode := 0x0100, inMask := 0x0100 })], su := { inq := [(1, [tok 3])] } }
theorem test_meets_StreamInstructionResults : (two streamer core).ok = true ∧ Issues (two streamer core) t0 2 [1, 2, 3, 4] ∧
    neighbour (two streamer core) t0 1 = some t1 ∧ streamer.outBusy 1 = false ∧ streamer.outMode 1 = 1 ∧
    hasCredit (two streamer core) t0 1 0 = true ∧ streamer.inBusy 1 = false ∧ streamer.inputs 1 = [tok 3] ∧
    (tok 3).parOk = true ∧ streamer.inMask 1 = 1 ∧ mrising streamer.su.inq = true ∧ streamer.outMode 2 ≠ 1 ∧
    streamer.inputs 2 = [] :=
  ⟨by decide, ⟨by decide, by decide, by decide⟩, by decide, by decide, by decide, by decide, by decide, by decide,
    by decide +kernel, by decide, by decide, by decide, by decide⟩
theorem test_meets_StreamInstructionResults_dma : Calm streamer ∧ PadFree streamer ∧
    ((at1 0x2FFFE0).getG 1).toNat % 32 = 0 ∧ ((at1 0x2FFFE0).getG 1).toNat + 32 * 1 ≤ 0x300000 ∧
    ((at1 0x2FFFF0).getG 1).toNat % 32 ≠ 0 := ⟨⟨rfl, fun _ => rfl, by decide⟩, ⟨rfl, by decide⟩, by decide, by decide, by decide⟩

/-- Tile (1, 0) with tokens for (0, 0) on its link W, and (0, 0) with what the clauses name on its port E. -/
def linked (k : BitVec 2) : State :=
  two { streamer with su := { pulses := [(1, [3])], dmas := [⟨.getm, 1, 2, 0, 0, 8, 1, false, [5], false, false, none⟩] } }
    { multi := true, su := { link := [(3, [tok k])] } }
theorem test_meets_StreamLinkResults : (linked 2).ok = true ∧ unitRuns (linked 2) t0 = true ∧
    mget [] (getTile (linked 2) t1).su.link (oppPort 1).toNat = [tok 2] ∧
    mget [] (getTile (linked 0) t1).su.link (oppPort 1).toNat = [tok 0] ∧ (getTile (linked 0) t1).multi = true ∧
    mget [] (getTile (linked 0) t0).su.pulses 1 = [3] ∧ partOf (linked 0) t0 = none ∧
    (getTile (linked 0) t0).su.dmas[0]? = some ⟨.getm, 1, 2, 0, 0, 8, 1, false, [5], false, false, none⟩ := by decide
def router : Tile := { core with slots := [(0, { outMode := 0x020000, inMask := 0x0800 })], su := { inq := [(1, [tok 0])] } }
theorem test_meets_StreamLinkResults_routed : Calm router ∧ router.inputs 1 = [tok 0] ∧ router.inMask 1 = 2 ^ ((2#2).toNat + 1) ∧
    router.outMode 2 = 2 ∧ hasCredit (two router core) t0 2 0 = true ∧
    Calm { router with su := { pulses := [(1, [3])] } } :=
  ⟨⟨rfl, fun _ => rfl, by decide⟩, by decide, by decide, by decide, by decide, ⟨rfl, fun _ => rfl, by decide⟩⟩

def ringed (r : Ring) : Tile :=
  { core with slots := [(0, { dtLog2 := 8, dtOut := 1, inMask := 0x2000 })], su := { inq := [(1, [tok 3])], rings := [(0, r)] } }
theorem test_meets_DetourRingResults : (node (ringed { gather := [tok 0] })).ok = true ∧
    unitRuns (node (ringed { gather := [tok 0] })) t0 = true ∧ (ringed { gather := [tok 0] }).activeSlot.dtLog2 ≠ 0 ∧
    ((ringed { gather := [tok 0] }).ring 0).gather = [tok 0] ∧ (tok 0).parOk = true ∧
    min (8 - 7 % 8) (9 - 7) ≤ ([0, 0] : List Half).length ∧ (ringed {}).outMode (ringed {}).activeSlot.dtPort ≠ 2 ∧
    allPorts.find? (ringed {}).toDetour = some 1 ∧ (ringed {}).inMask 1 = 32 ∧ (ringed {}).inputs 1 = [tok 3] ∧
    hasCredit (node (ringed {})) t0 (ringed {}).activeSlot.dtPort 0 = true := by decide +kernel

def slotted : Tile :=
  { core with g := [(1, 3)], slots := [(0, { outMode := 0x0100 }), (1, { valid := true, entry := 4095, tag := 7, qmask := 0x8000 })] }
theorem test_meets_ConfigInstructionResults : (two slotted core).ok = true ∧ Issues (two slotted core) t0 1 [2, 1] ∧ Calm slotted ∧
    PadFree slotted ∧ matEmpty slotted.mat = true ∧ slotted.activeSlot.ovNext = false ∧ (slotted.getSlot 1).valid = true ∧
    (slotted.getSlot 2).valid = false ∧ slotted.foreignHeld 1 = false ∧
    ({ slotted with su := { inq := [(1, [{ tok 0 with slot := 1 }])] } } : Tile).foreignHeld 1 = true ∧
    (slotted.getG 1).toNat % 32 ≠ 0 ∧ slotted.su.loading = false ∧ slotted.outMode 1 = 1 ∧
    neighbour (two slotted core) t0 1 = some t1 ∧ hasCredit (two slotted core) t0 1 0 = true :=
  ⟨by decide, ⟨by decide, by decide, by decide⟩, ⟨rfl, fun _ => rfl, by decide⟩, ⟨rfl, by decide⟩, by decide, by decide, by decide,
    by decide, by decide, by decide, by decide, by decide, by decide, by decide, by decide⟩
theorem test_meets_ConfigInstructionResults_ports : ∀ p, slotted.inputs p = [] := by decide

def loading : Tile := { slotted with su := { cload := some ⟨1, 0, 1, true, none⟩ } }
def sendingCfg : Tile := { slotted with su := { cfgSend := some ⟨1, [(1, 7, zeros 64)], 1⟩ } }
def cfgToken (dest : Nat) : Token := ⟨BitVec.ofNat 256 dest, 2, parOf (BitVec.ofNat 256 dest), 1, 7⟩
def receiving (dest : Nat) : Tile := { slotted with su := { cfgq := [(1, [cfgToken dest])] } }
def inPart (s : State) : State := { s with parts := [(0, { st := .bound, w := 1, h := 1 })] }
theorem test_meets_ConfigPathResults : (two loading core).ok = true ∧ unitRuns (two loading core) t0 = true ∧
    loading.su.cload = some ⟨1, 0, 1, true, none⟩ ∧ destTile 1 = t1 ∧ destOk (inPart (two sendingCfg core)) t0 t1 = true ∧
    (neighbour (two sendingCfg core) t0 (towardPort t0 t1)).isSome = true ∧ 1 + 1 < ((zeros 64).length + 23) / 24 ∧
    mget [] (receiving 0).su.cfgq 1 = [cfgToken 0] ∧ (cfgToken 0).parOk = true ∧ destTile 0 = t0 ∧
    ((receiving 0).getSlot 1).load = none ∧ destTile ((cfgToken 1).data.toNat % 65536) ≠ t0 := by decide +kernel
def autoTile : Tile :=
  { slots := [(0, { valid := true, auto := true, ovNext := true, next := 1 }), (1, { valid := true, judged := true })] }
theorem test_meets_ConfigPathResults_auto : unitRuns (node autoTile) t0 = true ∧ autoTile.activeSlot.auto = true ∧
    autoTile.activeSlot.ovNext = true ∧ (autoTile.getSlot 1).judged = true ∧ (autoTile.getSlot 1).valid = true ∧
    autoTile.activeSlot.inMask = 0 ∧ Calm autoTile ∧ ∀ p, autoTile.inputs p = [] :=
  ⟨by decide, by decide, by decide, by decide, by decide, by decide, ⟨rfl, fun _ => rfl, by decide⟩, by decide⟩
theorem test_meets_SystemResults : (held { st := .bound } core).ok = true ∧ Issues (held { st := .bound } core) t0 1 [1, 2] ∧
    partOf (held { st := .bound } core) t0 = some 0 ∧ t0.key ∉ (getPart (held { st := .bound } core) 0).arrived ∧
    comparePending (held { st := .bound } core) core = false ∧
    unitRuns (node { core with fences := [.fence 1 false true] }) t0 = true ∧ (7 : Reg).toNat < 8 ∧ 8 ≤ (8 : Reg).toNat :=
  ⟨by decide, ⟨by decide, by decide, by decide⟩, by decide, by decide, by decide, by decide, by decide, by decide⟩

/-- A READY block with no tile away from reset. -/
def idle : State := { node {} with tiles := [] }
/-- Field 0 is a RUNNING partition whose tiles have all arrived. -/
def arrivedPart : Part := { st := .running, w := 1, h := 1, arrived := (List.range 16).flatMap (fun y => (List.range 16).map (fun x => 112 * y + x)) }
def barrier (w : Row) : State := { idle with parts := [(0, arrivedPart)], rows := [(0, w)], clk := { active := some .a, gtc := 10 ^ 15 } }
theorem arrived_keys : (partTiles (barrier {}) arrivedPart).map XY.key = arrivedPart.arrived := by decide +kernel
theorem all_arrived : ∀ t ∈ partTiles (barrier {}) arrivedPart, t.key ∈ arrivedPart.arrived :=
  fun _ h => arrived_keys ▸ List.mem_map_of_mem h
theorem test_meets_StepReleases : (barrier {}).ok = true ∧ (getPart (barrier {}) 0).st = .running ∧ (getPart (barrier {}) 0).arrived ≠ [] ∧
    (∀ t ∈ partTiles (barrier {}) arrivedPart, t.key ∈ arrivedPart.arrived) ∧ dueRows (barrier {}) 0 = [] ∧
    (2 ^ 56 - 1 + 1) % 2 ^ 56 = 0 := ⟨by decide, by decide, by decide +kernel, all_arrived, by decide +kernel, by decide⟩
theorem test_meets_SpareWalkResults : (idle.ok = true ∧ (getRow idle 48 15).kind = .spare ∧ fieldAlive idle 48 = true ∧
    idle.boot.resetting = none ∧ rowStopped idle 48 15 = false ∧ partOfField idle 48 = none ∧ 15 % 8 = 7) ∧
    (∀ u, (getTile idle u).event = 0 ∧ (getTile idle u).ecc = []) ∧
    (getRow (barrier { visit := true }) 0 0).visit = true ∧ (getRow (barrier { visit := true }) 0 0).waiting = [] :=
  ⟨by decide, fun _ => ⟨rfl, rfl⟩, by decide, by decide⟩
theorem test_meets_SpareWalkResults_due : dueRows (barrier { e := 0, due := [0] }) 0 = [(0, 0)] ∧
    0 + walkDeadline (barrier { e := 0, due := [0] }) ≤ (barrier {}).clk.gtc ∧
    (∀ t ∈ partTiles (barrier {}) arrivedPart, t.key ∈ arrivedPart.arrived) :=
  ⟨by decide +kernel, by decide +kernel, all_arrived⟩
theorem test_meets_SpareWalkResults_bits : unitRuns (node core) t0 = true ∧ (⟨0, 0, 0⟩ : SiteId).valid = true ∧
    fieldAlive (node core) 0 = true ∧ tileAt (node core) ⟨0, 0, 0⟩ = some t0 ∧ clockOn (node { core with zeroising := true }) t0 = true ∧
    mrising [(393215, EccWord.single), (393216, .bad)] = true ∧ 393215 / 8 = 49151 := by decide

theorem test_meets_ControlBlockWrites :
    (let T : Tile := { slots := [(0, { valid := true })] }
     (node T).ok = true ∧ tileLive (node T) t0 = true ∧ T.run = false ∧ T.st ≠ .fault ∧ T.activeSlot.valid = true ∧
       T.activeSlot.auto = false ∧ (1#64).getLsbD 0 = true ∧ (1#64).getLsbD 1 = T.multi) ∧
    tileLive (node core) t0 = true ∧ core.run = true ∧ (2#64).getLsbD 1 ≠ core.multi ∧ core.event.getLsbD evCtrlRefused = false ∧
    (0x800 + 32 * 15) % 8 = 0 := by decide

/-- A train of this type at the end of its way from (1, 0) to (0, 0), for this unit. -/
def pkt (ty : PktType) (u : Unit_) : Pkt :=
  { mkPkt ty t1 t0 u with
    at_ := t0, tag := 63, sys := false, addr := 0x2FFFF8, len := 8, payload := zeros 8, queue := 15, ch := 5, pin := true, win := 64
    part := some 0 }
/-- Packet 3 is k, in a block with field 0 in partition 0 and these tiles. -/
def carry (k : Pkt) (T : Tile) : State := { inPart (two T core) with mesh := { pkts := [(3, k)], nextId := 4 } }
theorem atEnd (k : Pkt) (T : Tile) (h : Machine.atEnd (carry k T) 3 k = true) (r : routeOf (carry k T) true k.dst k.src none ≠ .unreachable) :
    AtEnd (carry k T) 3 k := ⟨rfl, h, rfl, rfl, (by decide : 3 < 4), r⟩
def moving : Pkt := { pkt .msg .tile with src := t0, dst := t1, at_ := t0 }
def waitingTx : Tile := { core with tx := [(63, ⟨.gld 1 false 3, 0x2FFFF8, 8, [0], false⟩)] }
theorem test_meets_TrainAndResponseResults : hopFenced (carry moving core) moving t0 t1 = false ∧ moving.at_ ≠ moving.dst ∧
    hopFenced { carry moving core with boot := { st := .ready, resetting := some .full }, fields := [(0, { power := .offShort })] }
      moving t0 t1 = true ∧ (carry (pkt .readRsp .tile) waitingTx).ok = true ∧ AtEnd (carry (pkt .readRsp .tile) waitingTx) 3 (pkt .readRsp .tile) ∧
    takes (carry (pkt .readRsp .tile) waitingTx) t0 = true ∧
    mfind waitingTx.tx 63 = some ⟨.gld 1 false 3, 0x2FFFF8, 8, [(pkt .readRsp .tile).piece], false⟩ ∧
    (pkt .readRsp .tile).payload.length = 2 ^ (3 : Size2).toNat ∧ waitingTx.st = .run :=
  ⟨by decide, by decide, by decide, by decide, atEnd _ _ rfl (by decide), by decide, by decide, by decide, by decide⟩
theorem test_meets_TileServesRequests : (carry (pkt .readReq .tile) core).ok = true ∧ AtEnd (carry (pkt .readReq .tile) core) 3 (pkt .readReq .tile) ∧
    takes (carry (pkt .readReq .tile) core) t0 = true ∧ mayReach (carry (pkt .readReq .tile) core) (pkt .readReq .tile) = true ∧
    (let k : Pkt := { pkt .write .tile with part := none }
     mayReach (carry k core) k = false) ∧ mayReach (carry (pkt .write .tile) core) (pkt .write .tile) = true ∧
    (pkt .write .tile).addr % 2 ^ 22 + 8 = 0x300000 ∧
    (let k : Pkt := { pkt .readReq .tile with len := 16 }
     mayReach (carry k core) k = true ∧ 0x300000 < k.addr % 2 ^ 22 + k.len) ∧
    (let k : Pkt := { pkt .write .tile with len := 9, payload := zeros 9 }
     mayReach (carry k core) k = true ∧ 0x300000 < k.addr % 2 ^ 22 + k.payload.length) :=
  ⟨by decide, atEnd _ _ rfl (by decide), by decide, by decide, by decide, by decide, by decide, by decide, by decide⟩
/-- The ring of queue 15 takes exactly one more record. -/
def nearlyFull : Tile := { core with qu := { qs := [(15, { log2 := 12, maxmsg := 8, wp := 4032 })] } }
theorem test_meets_MessageLands : (carry (pkt .msg .tile) nearlyFull).ok = true ∧ AtEnd (carry (pkt .msg .tile) nearlyFull) 3 (pkt .msg .tile) ∧
    takes (carry (pkt .msg .tile) nearlyFull) t0 = true ∧
    (let Q := nearlyFull.getQ 15
     Q.log2 ≠ 0 ∧ 8 ≤ Q.maxmsg.toNat ∧ Q.wp.toNat % 2 ^ Q.log2.toNat + 64 ≤ 2 ^ Q.log2.toNat ∧
       64 + (Q.wp - Q.rp).toNat ≤ 2 ^ Q.log2.toNat) ∧ (core.getQ 15).log2 = 0 :=
  ⟨by decide, atEnd _ _ rfl (by decide), by decide, by decide, by decide⟩
def opening (st : ChanState) : Tile :=
  { core with qu := { qs := [(15, { log2 := 12, maxmsg := 64, winsum := 3840 })], chans := [(5, { st := st, win := 64, closeSent := true, d := 1 })] } }
theorem test_meets_ChannelProtocol : (carry (pkt .opn .tile) (opening .opening)).ok = true ∧
    AtEnd (carry (pkt .opn .tile) (opening .opening)) 3 (pkt .opn .tile) ∧ takes (carry (pkt .opn .tile) (opening .opening)) t0 = true ∧
    (let Q := (opening .opening).getQ 15
     Q.log2 ≠ 0 ∧ 64 ≤ Q.maxmsg.toNat ∧ Q.winsum.toNat + recBytes 64 + recBytes Q.maxmsg.toNat ≤ 2 ^ Q.log2.toNat) ∧
    (core.getQ 15).log2 = 0 ∧ ((opening .closing).getChan 5).closeSent = true ∧ mrising (opening .opened).qu.chans = true ∧
    mrising (opening .opened).qu.qs = true :=
  ⟨by decide, atEnd _ _ rfl (by decide), by decide, by decide, by decide, by decide, by decide, by decide⟩
/-- Granule 0 belongs to partition 0. -/
def dpkt (ty : PktType) : Pkt := { pkt ty .dram with addr := 0x010000000000 }
def dcarry (ty : PktType) (d : Dram) : State := { carry (dpkt ty) core with dram := { d with granules := [(0, ⟨0, false⟩)] } }
theorem test_meets_DramServesRequests :
    ((dcarry .readReq {}).ok = true ∧ dramTakes (dcarry .readReq {}) (dpkt .readReq) = true ∧
    chanDead (dcarry .readReq {}) (dramMap (dcarry .readReq {}) 0x010000000000).2 = false ∧ 0 < (dpkt .readReq).span ∧
    mayReach (dcarry .readReq {}) (dpkt .readReq) = true ∧ linePoison (dcarry .readReq {}) 0 = false ∧
    linePoison (dcarry .readReq { poison := [(0, true)] }) 0 = true ∧ writeHeld (dcarry .write {}) 0 8 = false ∧
    (let s : State := { dcarry .write {} with parts := [(0, { st := .running, w := 1, h := 1, c := some 0, regions := [(0, ⟨0, 64, 1, true⟩)] })] }
     writeHeld s 0 8 = true ∧ mayReach s (dpkt .write) = true) ∧ mayReach (carry (dpkt .write) core) (dpkt .write) = false) ∧
    AtEnd (dcarry .readReq {}) 3 (dpkt .readReq) := ⟨by decide, rfl, rfl, rfl, rfl, by decide, by decide⟩
theorem test_meets_DramEventResults : (idle.power.on = true ∧ idle.dram.selfRefresh = false ∧ chanDead idle 223 = false ∧
    (getChannel { idle with dram := { channels := [(223, { patrol := 100663295 })] } } 223).patrol + 1 = 100663296 ∧
    linePoison idle (lineAt idle 223 100663295) = false ∧ idle.boot.st = .ready ∧ idle.boot.computeAt = []) ∧
    (let s : State := { dcarry .write { held := [3] } with parts := [(0, { st := .running, w := 1, h := 1, c := some 0, regions := [(0, ⟨0, 64, 1, true⟩)] })] }
     s.dram.held = [3] ∧ heldBy (getPart s 0) ((dpkt .write).addr - 0x010000000000) (dpkt .write).span = true) := by decide
/-- The same with port A's link up, an MCTP endpoint id, and partition 0 of the PF of port A in this state. -/
def hosted (st : PartState) (P : Port_) : State :=
  { idle with parts := [(0, { st := st, w := 1, h := 1, ctx := if st = .bound ∨ st = .running then some 9 else none })],
              ctxs := if st = .bound ∨ st = .running then [(9, 0)] else [], portA := { P with linkUp := true, eid := 8 } }
def windows : SMap HostRegion := [(0, ⟨0x1000, 0, true, false, false, false⟩)]
def wcarry (k : Pkt) (P : Port_) : State := { hosted .bound P with mesh := { pkts := [(3, k)], nextId := 4 } }
theorem test_meets_HostWindowResults : AtEnd (wcarry (pkt .write (.host .a)) {}) 3 (pkt .write (.host .a)) ∧
    (let s := wcarry (pkt .write (.host .a)) { regions := windows, reads := [(5, ⟨pkt .readReq (.host .a), 0⟩)] }
     s.ok = true ∧ s.boot.resetting = none ∧ (windowRegion s .a { pkt .write (.host .a) with addr := 0x00FFFFFFFF }).isSome = true ∧
     windowRegion s .a { pkt .write (.host .a) with addr := 0x0100000000 } = none ∧ mrising (portOf s .a).reads = true ∧
     (mfind (portOf s .a).reads 5).isSome = true ∧ routeOf s true t0 t1 none ≠ .unreachable) ∧
    (let s := hosted .bound { fns := [(0, { enable := true })] }
     fnExists s ⟨.a, 0⟩ = true ∧ 2 ^ 36 - 8 + 8 ≤ bar2Size 0 ∧ (2 ^ 36 - 8) % 4096 + 8 ≤ 4096 ∧ degraded s .a = false ∧
     (getFn s ⟨.a, 0⟩).enable = true ∧ bar2Part s ⟨.a, 0⟩ 0x2FFFF8 = some 0 ∧ endpoint s 0x2FFFF8 = some (t0, .tile) ∧
     (match hostTile s .a 0x2FFFF8 with
      | none => false
      | some src => decide (routeOf s false src t0 none ≠ .unreachable)) = true) ∧ (getFn (hosted .bound {}) ⟨.a, 0⟩).enable = false :=
  ⟨⟨rfl, rfl, rfl, rfl, by decide, by decide⟩, by decide +kernel, by decide +kernel, by decide⟩

/-- A pair of 16 entries with these commands. -/
def qpair (cmds : List HostCmd) (done : List Completion) : QPair := ⟨0, 4, 4, 2047, true, 0, 0, 15, 15, 0, 15, [], cmds, done, true, none, []⟩
/-- A host command's 64 bytes: opcode, CID 1, context 9, and operand bytes from 16 on. -/
def cmdBytes (op : Byte) (l : List Byte) : List Byte := [op, 0, 1, 0, 9, 0] ++ zeros 10 ++ l ++ zeros (48 - l.length)
theorem test_meets_PortAndQueuePairResults :
    (let s := hosted .bound { vfs := 31, qps := [(255, qpair [] [⟨1, 0, 0, false⟩])], fns := [(31, { enable := true })] }
     s.ok = true ∧ mrising (portOf s .a).fns = true ∧ fnExists s ⟨.a, 31⟩ = true ∧ (portOf s .a).linkUp = true ∧
     getPair s .a 255 = some (qpair [] [⟨1, 0, 0, false⟩]) ∧ s.boot.silent = false) ∧
    (15 + 1) % 2 ^ 4 = 0 ∧ (cmdBytes 6 []).length = 64 ∧ 1 ≤ (byteAt (cmdBytes 6 []) 0).toNat ∧
    (byteAt (cmdBytes 6 []) 0).toNat ≤ 6 ∧ 15 - 0 < 2 ^ 4 ∧ ({ idle with pins := { pwrGood := true } } : State).pins.pwrGood = true := by
  decide

/-- A RUNNING or BOUND partition 0, its pair 0 holding one command. -/
def cmding (st : PartState) (c : HostCmd) : State := hosted st { qps := [(0, qpair [c] [])] }
def hcmd (op : Byte) (l : List Byte) (started : Bool) : HostCmd := ⟨7, cmdBytes op l, started, none, []⟩
def ready (st : PartState) (c : HostCmd) : Bool :=
  decide (commonCheck (cmding st c) .a (qpair [c] []) c = none) && decide (c.part (cmding st c) = some 0) && !c.noCqe && !c.started
theorem cmdReady {st : PartState} {c : HostCmd} (h : ready st c = true) (r : c.run = none) (e : c.scope = []) :
    CmdReady (cmding st c) .a 0 (qpair [c] []) c 0 := by
  simp only [ready, Bool.and_eq_true, decide_eq_true_eq, Bool.not_eq_true'] at h
  exact ⟨rfl, rfl, h.2, r, e, rfl, rfl, h.1.2, h.1.1.1, h.1.1.2⟩
theorem test_meets_HostCommandResults : CmdReady (cmding .running (hcmd 2 [] false)) .a 0 (qpair [hcmd 2 [] false] []) (hcmd 2 [] false) 0 ∧
    CmdReady (cmding .bound (hcmd 2 [3] false)) .a 0 (qpair [hcmd 2 [3] false] []) (hcmd 2 [3] false) 0 ∧
    CmdReady (cmding .bound (hcmd 3 (zeros 8 ++ [0xF0, 0x0F] ++ zeros 6 ++ [16, 0, 0, 0, 1]) false)) .a 0
      (qpair [hcmd 3 (zeros 8 ++ [0xF0, 0x0F] ++ zeros 6 ++ [16, 0, 0, 0, 1]) false] [])
      (hcmd 3 (zeros 8 ++ [0xF0, 0x0F] ++ zeros 6 ++ [16, 0, 0, 0, 1]) false) 0 ∧
    CmdReady (cmding .running (hcmd 4 [] false)) .a 0 (qpair [hcmd 4 [] false] []) (hcmd 4 [] false) 0 ∧
    CmdReady (cmding .running (hcmd 5 [] false)) .a 0 (qpair [hcmd 5 [] false] []) (hcmd 5 [] false) 0 ∧
    CmdReady (cmding .running (hcmd 6 (zeros 16 ++ [1] ++ zeros 7 ++ [3]) false)) .a 0
      (qpair [hcmd 6 (zeros 16 ++ [1] ++ zeros 7 ++ [3]) false] []) (hcmd 6 (zeros 16 ++ [1] ++ zeros 7 ++ [3]) false) 0 :=
  ⟨cmdReady (by decide +kernel) rfl rfl, cmdReady (by decide +kernel) rfl rfl, cmdReady (by decide +kernel) rfl rfl,
    cmdReady (by decide +kernel) rfl rfl, cmdReady (by decide +kernel) rfl rfl, cmdReady (by decide +kernel) rfl rfl⟩
def copyCmd : HostCmd := hcmd 3 (zeros 8 ++ [0xF0, 0x0F] ++ zeros 6 ++ [16, 0, 0, 0, 1]) false
def loadCmd : HostCmd := hcmd 1 (zeros 8 ++ [0, 32, 0, 0, 0, 0, 1, 0]) false
theorem test_meets_HostCommandResults_more :
    copyCmd.at 24 8 % 4096 + copyCmd.at 32 4 ≤ 4096 ∧ copyCmd.at 36 1 = 1 ∧ 0 < copyCmd.at 32 4 ∧
    endpoint (cmding .bound copyCmd) (copyCmd.at 24 8) = some (t0, .tile) ∧ (hostTile (cmding .bound copyCmd) .a 0xFF0).isSome = true ∧
    (match hostTile (cmding .bound copyCmd) .a 0xFF0 with
     | none => false
     | some src => decide (routeOf (cmding .bound copyCmd) false src t0 none ≠ .unreachable)) = true ∧
    ready .bound loadCmd = true ∧ loadCmd.at 28 2 = 0 ∧ loadCmd.at 30 1 < 4 ∧ loadCmd.at 24 4 = 8192 ∧ loadCmd.at 32 4 = 0 ∧
    tileLive (cmding .bound loadCmd) t0 = true ∧ partOf (cmding .bound loadCmd) t0 = some 0 ∧
    (hcmd 4 [] false).at 16 8 = (getPart (cmding .running (hcmd 4 [] false)) 0).n ∧
    faultyRegion (getPart (cmding .running (hcmd 4 [] false)) 0) 0 = none ∧
    (hcmd 6 (zeros 24 ++ [3]) true).at 32 8 ≤ 0 ∧ (hcmd 6 (zeros 24 ++ [3]) true).at 40 1 = 3 := by decide +kernel
/-- A write by MCTP is accepted (checks 1 to 6 of R338). -/
def m8 : WReq := ⟨.mctp .a 8, 0, true⟩
def acc (s : State) (ix sub : Nat) (d : List Byte) : Bool :=
  reaches s (wholeWrite m8 ix sub d) d && !(malformed (wholeWrite m8 ix sub d)) &&
    (match judge s m8.ep ix sub false (.write d) with
     | .ok _ => true
     | .error _ => false) && s.sec.unlocking.isNone && s.aceel.answered.isEmpty && s.aceel.waiting.isEmpty
theorem accepts {s : State} {ix sub : Nat} {d : List Byte} (h : acc s ix sub d = true) : Accepts s m8 ix sub d := by
  simp only [acc, Bool.and_eq_true, Bool.not_eq_true', Option.isNone_iff_eq_none, List.isEmpty_iff] at h
  obtain ⟨⟨⟨⟨⟨h1, h2⟩, h3⟩, h4⟩, h5⟩, h6⟩ := h
  refine ⟨rfl, h1, ?_, h2, ?_, h4, h6⟩
  · simp [retryOf, wholeWrite, m8, h5]
  · split at h3
    · exact ⟨_, ‹_›⟩
    · cases h3
theorem test_meets_PartitionWriteResults :
    (let s := { hosted .free {} with parts := [] }
     s.ok = true ∧ acc s 0x2002 0 [48, 6, 6, 1, 1, 0, 1, 0] = true ∧ (getPart s 48).st = .free ∧ rectFields 6 6 1 1 = some [48] ∧
     fieldWhole s 48 = true ∧ partOfField s 48 = none ∧ fnExists s ⟨.b, 0⟩ = true) ∧
    (let s := hosted .idle {}
     acc s 0x2002 0 [0, 0, 0, 1, 1, 0, 0, 0] = true ∧ partOfField s 0 = some 0 ∧ acc s 0x2003 0 [0] = true ∧
     writerHolds s m8.ep 0 = true ∧ acc s 0x2004 0 [0, 6, 6, 1, 1, 0, 0, 0] = true ∧ hasCommand s 0 = false ∧
     acc s 0x2005 0 [0, 0, 0, 0, 0, 0, 1, 0] = true ∧ acc s 0x2010 0 [9, 0] = true ∧ mfind s.ctxs 9 = none) ∧
    (let s := hosted .bound {}
     acc s 0x2011 0 [9] = true ∧ acc s 0x6000 1 [9] = true ∧ mfind s.ctxs 9 = some 0 ∧ fromVf m8.ep = false ∧
     (getPart s 0).resetting = none) := by decide +kernel
def qpBytes : List Byte := [255, 0, 4, 16, 255, 7, 0, 0] ++ zeros 24
theorem test_meets_PortMemoryWriteResults :
    (let s := hosted .idle {}
     s.ok = true ∧ hostFn m8.ep = none ∧ acc s 0x6820 0 qpBytes = true ∧ getPair s .a 255 = none ∧ num qpBytes 4 2 < vectorsOf 0 ∧
     acc s 0x6813 128 (zeros 8 ++ [31, 1] ++ zeros 6) = true ∧ acc s 0x4803 0 [62, 5, 1, 0, 0, 0, 0, 0] = true ∧
     num [62, 5, 1, 0] 0 2 + num [62, 5, 1, 0] 2 2 = 1343 ∧ acc s 0x4801 0 [1] = true ∧ s.dram.granules = []) ∧
    (let s := hosted .idle { qps := [(255, qpair [] [])] }
     acc s 0x6821 0 [255, 0] = true ∧ getPair s .a 255 = some (qpair [] []) ∧ mrising (portOf s .a).qps = true) ∧
    (let s := { hosted .idle {} with dram := { granules := [(1342, ⟨0, false⟩)] } }
     acc s 0x4804 0 [62, 5, 1, 0, 0, 0, 0, 0] = true ∧ anyRun s 0 = false ∧ mrising s.dram.granules = true ∧
     mfind s.dram.granules 1342 = some ⟨0, false⟩ ∧ acc s 0x4801 0 [1] = true ∧ s.dram.granules ≠ []) := by decide +kernel
def xconn (st : ConnState) : Conn := { desc := [5, 0, 2, 0, 1, 0, 0, 0] ++ zeros 32, st := st }
/-- The block is device 1 and connection 1 of port 0 reaches device 2. -/
def xstate (C : Conn) : State :=
  { hosted .idle {} with saved := { live := [(entryKey 0x7001 1, [1, 0])] }, xdt := { eths := [(0, { up := true })], conns := [(1, C)], aps := [(0, ⟨true, 1, 0, 0⟩)] } }
theorem test_meets_SettingWriteResults :
    (let s := hosted .idle {}
     s.ok = true ∧ isHole s ⟨15, 15⟩ = false ∧ partOf s ⟨15, 15⟩ = some 0 ∧
     acc s 0x2810 0 ([15, 15, 15, 12, 0, 240, 47, 0, 176, 7, 0, 0] ++ zeros 4) = true ∧ recBytes 1968 ≤ 2 ^ (12 - 1) ∧
     num [0, 240, 47, 0] 0 4 + 2 ^ 12 ≤ 0x300000 ∧ acc s 0x2401 1 [1] = true ∧ acc s 0x2402 1 [1] = true ∧
     acc s 0x7801 1 [15, 7, 0, 0, 0, 16, 0, 0] = true ∧ acc s 0x7883 0 [1] = true ∧
     acc s 0x6002 1 (zeros 128) = true ∧ acc s 0x5803 0 (zeros 8) = true ∧ acc s 0x6000 2 [1] = true ∧ acc s 0x6000 3 [1] = true ∧
     acc s 0x5020 0 [0, 48, 15, 16] = true ∧ acc s 0x5020 0 [1, 48, 0, 0] = true ∧ acc s 0x5020 0 [2, 27, 0, 0] = true ∧
     partOfField s 48 = none ∧ (getComplex s 27).lost = false) ∧
    (let s := xstate { xconn .disabled with desc := [] }
     acc s 0x7010 1 ((xconn .opened).desc ++ zeros 24) = true ∧ (getConn s 1).enabled = false ∧ deviceId s = 1 ∧
     fieldOf (xconn .opened).desc 2 2 = 2) ∧
    (let s := xstate (xconn .opened)
     acc s 0x7020 1 ([1, 0, 0, 1, 0, 16] ++ zeros 10) = true ∧ (getConn s 1).enabled = true ∧ (getConn s 1).part = 0) ∧
    (let s := { hosted .idle {} with clk := { active := some .b, goodA := true, goodB := true } }
     acc s 0x4000 2 [0] = true) := by decide +kernel
theorem test_meets_SettingWriteResults_busy :
    (let s := hosted .running {}
     (getPart s 0).st = .running ∧ acc s 0x6002 1 (zeros 128) = true ∧
     partBusy { s with tiles := [(0, core)] } 0 = true ∧ partBusy s 0 = false ∧
     acc { s with tiles := [(0, core)] } 0x2402 1 [1] = true ∧
     ({ s with tests := { requests := [⟨0, 0, 0, 0⟩] } } : State).tests.requests[0]? = some ⟨0, 0, 0, 0⟩) := by decide +kernel

theorem test_meets_SecurityResults :
    (let s := hosted .idle {}
     acc s 0x8020 4 (7 :: zeros 71) = true ∧ anyValid s.sec.slots = false ∧
     unsignable (mset (0, 0) s.sec.slots 4 (7, 0)) = false ∧ acc s 0x8023 0 [3] = true ∧ acc s 0x8011 0 [1] = true ∧
     acc s 0x1800 3 [1] = true ∧ testPortOpen s = true ∧
     acc s 0x8021 0 ([3, 3] ++ zeros 3179) = true ∧ commandFormed ([3, 3] ++ zeros 3179) = true ∧
     commandSigned s ([3, 3] ++ zeros 3179) = false) ∧
    (let s := { hosted .idle {} with sec := { slots := [(1, (7, 0))], runSvn := 0 } }
     acc s 0x8020 1 (zeros 72) = true ∧ anyValid s.sec.slots = true ∧ s.sec.runSvn ≤ minSvnOf s) := by decide +kernel
/-- A signed command needs only that the signature verifies: the digest of its key may stand in the slot. -/
theorem test_meets_SecurityResults_signed (key sig : List Byte) (hk : key.length = 1793)
    (hv : Config.falconVerify key ((List.range 32).map (Config.nonce 1)) sig = true) :
    ∃ s : State, s.sec.nonceHeld = true ∧ slotValid (ownerSlot s 1) = true ∧ slotKeys (ownerSlot s 1) = true ∧
      Config.shake512 key = (ownerSlot s 1).2 ∧ nonceBytes s = (List.range 32).map (Config.nonce 1) ∧
      key.length = 1793 ∧ Config.falconVerify key (nonceBytes s) sig = true := by
  refine ⟨{ sec := { slots := [(1, (3, Config.shake512 key))], nonce := 1, nonceHeld := true } }, rfl, (by decide : (3#8).getLsbD 0 = true),
    (by decide : (3#8).getLsbD 1 = true), rfl,
    rfl, hk, hv⟩
theorem test_meets_SecurityResults_commit : minSvnOf State.reset < 64 := by
  have := Config.fusedSvn.isLt
  simp only [minSvnOf, State.reset, Nat.max_def]
  split <;> omega

def rq (op ix sub len off : Nat) : Req := ⟨.mctp .a 8, op, 0, ix, sub, 0, 7, len, off, true, {}⟩
/-- The entry may be read. -/
def readable (s : State) (ix sub : Nat) (block : Bool) : Bool :=
  match judge s (.mctp .a 8) ix sub block .read with
  | .ok i => decide (i.size ≤ 4080)
  | .error _ => false
theorem test_meets_AceelResults :
    (let s := hosted .idle {}
     readable s 0x1000 9 false = true ∧ readable s 0x6000 4 false = true ∧ readable s 0x2003 0 false = false ∧
     (match judge s (.mctp .a 8) 0x5801 0 true .read with
      | .ok _ => true
      | .error _ => false) = true ∧ s.aceel.answered = [] ∧ (rq 1 0x1000 9 0 0).len = 0 ∧
     judgeBlock s (rq 4 0x8012 0 256 0) = none) ∧
    (let s := { hosted .idle {} with parts := [(0, { st := .idle, w := 1, h := 1, cfg := { scale := 0x100000000000 } })] }
     readable s 0x7802 1 false = true ∧ 128 * scCount (getPart s 0).cfg.scale ≤ 4080 ∧
     (match readEntry s 0x7802 1 [] with
      | .ok v => decide (v.length = 128)
      | .error _ => false) = true) := by decide +kernel

theorem test_meets_MailboxAndAttestationResults :
    (let s := hosted .idle { spdm := true, fns := [(0, { ready := some [1] })] }
     (portOf s .a).linkUp = true ∧ fnExists s ⟨.a, 0⟩ = true ∧ mrising (portOf s .a).fns = true ∧ s.boot.silent = false ∧
     (getFn s ⟨.a, 0⟩).busy = false ∧ (getFn s ⟨.a, 0⟩).ready = some [1] ∧ (portOf s .a).eid ≠ 0 ∧
     (portOf s .a).spdm = true ∧ s.sec.dbg = 0 ∧ s.sec.unlocking = none ∧ s.sec.identity = false) ∧
    (getFn (hosted .idle { fns := [(0, { done := true })] }) ⟨.a, 0⟩).done = true ∧
    (let s : State := { hosted .idle { spdm := true } with sec := { identity := true } }
     s.sec.identity = true) := by decide

/-- A data frame for connection 1. -/
def xf (psn : Nat) (restart : Bool) : XFrame := { frame0 with last := false, restart := restart, ddev := 1, sdev := 2, pkey := 1, psn := psn }
theorem test_meets_XdtReceiveResults :
    (let s := xstate (xconn .opened)
     ethReceives s 0 = true ∧ matchConn s 0 (xf 0 false) = some 1 ∧ (getConn s 1).st = .opened ∧
     (BitVec.ofNat 32 (xf 511 false).psn - (getConn s 1).expPsn).toNat < (getConn s 1).window ∧
     2 ^ 31 < (BitVec.ofNat 32 (xf (2 ^ 32 - 1) false).psn - (getConn s 1).expPsn).toNat ∧
     heldBytes s (connSouth 1) + (xf 0 false).payload.length ≤ 2 ^ 26 ∧ (getConn s 1).lastCut = none ∧
     matchConn s 0 { xf 0 false with pkey := 2 } = none) ∧
    (getConn (xstate (xconn .restarting)) 1).st = .restarting := by decide +kernel
theorem test_meets_XdtSendResults :
    (let C : Conn := { xconn .opened with fresh := [⟨1, xf 0 false⟩], unacked := [⟨1, xf 0 false⟩], unackedRx := 1, expiries := 7 }
     let s := xstate C
     connSends s 1 = true ∧ C.unacked.length < C.window ∧ 0 < C.unackedRx ∧ s.boot.resetting = none ∧ getConn s 1 = C ∧
     C.autoRestart = true ∧ C.enabled = true) ∧
    (xconn .opened).window ≤ (List.replicate 512 (⟨1, xf 0 false⟩ : XOut)).length ∧
    ethReceives (xstate (xconn .restarting)) 0 = true := by decide +kernel
def apPkt : Pkt := { pkt .readReq (.cuffN false) with addr := 0x0A0000000000 }
theorem test_meets_ApertureAndPortResults :
    (let s := { xstate (xconn .opened) with mesh := { pkts := [(3, apPkt)], nextId := 4 } }
     (mfind s.mesh.pkts 3 = some apPkt ∧ routeOf s true t0 t1 none ≠ .unreachable) ∧ (getAp s 0).isSome = true ∧ getAp s 1 = none ∧
     mayReach s apPkt = true ∧ mayReach s { apPkt with part := none } = false ∧ outstandingIn s false < 16384 ∧
     ethReceives s 0 = true ∧ liveNat s 0x7003 1 2 = 2) ∧
    (let s := { xstate (xconn .opened) with saved := { live := [(entryKey 0x7003 1, [0, 0, 0, 0]), (entryKey 0x7040 1, [0])] } }
     (liveNat s 0x7003 1 2).testBit 1 = false ∧ liveNat s 0x7040 1 0xFF = 0) := by decide +kernel

theorem test_meets_ClockResults :
    (let s : State := { idle with clk := { active := some .a, goodB := true }, parts := [(0, { st := .bound, w := 1, h := 1, change := some (.stopped 0) })] }
     s.power.on = true ∧ refGood s .b = true ∧ refGood { s with clk := { active := some .a } } .b = false ∧
     (getPart s 0).change = some (.stopped 0) ∧ liveFields s 0 = [0] ∧ (getField s 0).retried = false ∧
     (getField { s with fields := [(0, { retried := true })] } 0).retried = true ∧ syncField s = some 24 ∧ fieldAlive s 24 = true ∧
     syncField { s with clk := { sync := 1 } } = some 18) := by decide +kernel
theorem test_meets_PowerResults :
    (let s := hosted .bound {}
     s.power.converters = 8 ∧ ({ s with power := { on := true, converters := 5 } } : State).power.converters ≤ 5 ∧
     partOfField s 0 = some 0 ∧ fieldAlive s 48 = true ∧ mrising s.parts = true ∧
     (let m : GovMeas := ⟨1000, 20000, 0, [(0, 5000)], [(0, 10000)], [(0, 4000)], [(0, 8000)], [], 0⟩
      let d := demandOf s m (getPart s 0) 0
      m.other + (d.base + d.dyn) ≤ effectiveCap s ∧ d.cap ≤ 16) ∧
     (let m : GovMeas := ⟨1000, 20000, 0, [(0, 15000)], [(0, 40000)], [(0, 4000)], [(0, 8000)], [], 0⟩
      let d := demandOf s m (getPart s 0) 0
      d.id = 0 ∧ 0 < d.fields ∧ m.other ≤ effectiveCap s ∧ 16 * (effectiveCap s - m.other) < d.at16 d.cap)) := by decide +kernel
theorem test_meets_ThermalResults : blockOk idle 48 15 = true ∧
    (getBlock { idle with blocks := [(783, { droop := 15, stopped := true })] } (16 * 48 + 15)).droop < 16 ∧
    (⟨48, 15, 16⟩ : SiteId).valid = true ∧ (⟨48, 15, 16⟩ : SiteId).block = 16 * 48 + 15 ∧
    (∀ c, (getSite idle c).temp < 105) ∧ throttleAt idle ≤ 104 ∧
    (getField { idle with fields := [(48, { thermal := 15 })] } 48).thermal < 16 ∧ 0 + 3 < throttleAt idle ∧
    blockTemp idle 48 15 < 100 ∧ 100 ≤ blockTemp { idle with sites := [(SiteId.key ⟨48, 15, 16⟩, { temp := 100 })] } 48 15 :=
  ⟨by decide, by decide, by decide, by decide, fun _ => (by decide : (0 : Nat) < 105), by decide, by decide, by decide, by decide +kernel,
    by decide +kernel⟩
theorem test_meets_ControllerResults : fieldAlive idle (bundleFields 127511).1 = true ∧ fieldAlive idle (bundleFields 127511).2 = true ∧
    (mget {} idle.bundles 127511 : Bundle).bad < 2 ∧ 127511 < 1386 * 92 ∧ tileLive (node { core with event := 0x2000 }) t0 = true ∧
    ({ core with event := 0x2000 } : Tile).event.getLsbD 13 = true ∧ core.eventEn.getLsbD 13 = true ∧
    (let s : State := { idle with fields := [(18, locked), (48, { missed := 3, hangs := [1, 2] })], boot := { st := .ready, master := some 48, standby := some 18, candidates := [18, 48] } }
     isHung s 48 = true ∧ (getField s 48).hangs = [1, 2] ∧ s.clk.gtc < 1 + 3600000000000 ∧ candidate s 18 = true) ∧
    (getField { idle with fields := [(48, { hung := true })] } 48).hung = true := by decide +kernel
theorem test_meets_ResetEndResults :
    (let s := hosted .bound {}
     let P : Part := { getPart s 0 with resetting := some ⟨false, true, true, 0, 0, none⟩ }
     let u : State := { s with parts := [(0, P)], mesh := { pkts := [(3, { pkt .msg .tile with ctx := 9 })], nextId := 4, flushing := [0] } }
     u.ok = true ∧ (getPart u 0).resetting = some ⟨false, true, true, 0, 0, none⟩ ∧ flushingPkt u { pkt .msg .tile with ctx := 9 } = true ∧
     (∀ e ∈ ({ u with mesh := {} } : State).mesh.pkts, ¬(flushingPkt { u with mesh := {} } e.2 = true)) ∧ P.ctx = some 9) ∧
    (let s : State := { idle with boot := { st := .computeReset, resetting := some .compute } }
     s.ok = true ∧ s.clk.lost = false) ∧
    (let s : State := { idle with boot := { st := .fullPending, resetting := some .full }, clk := { goodB := true } }
     s.ok = true ∧ s.clk.goodB = true) := by decide +kernel
theorem test_meets_BootResults : State.reset.pins.pwrEn = false ∧ State.reset.pins.faultLatched = false ∧
    ({ State.reset with pins := { faultLatched := true } } : State).pins.faultLatched = true ∧
    ({ power := { on := true }, boot := { step := 5 } } : State).boot.st = .booting := by decide
theorem test_meets_StepKeepsInvariant : ({ node core with pending := [.add t0 1 2 3] } : State).ok = true ∧
    after (step { node core with pending := [.add t0 1 2 3] }) = (after (exec (.add t0 1 2 3) (node core))) := ⟨by decide, rfl⟩
theorem test_meets_ReadAfterWrite : Memory.wf [(0, 1), (0x2FFFFF, 2)] = true ∧ Memory.wf [(0, 0)] = false ∧
    Memory.wf [(1, 1), (0, 1)] = false ∧ core.ok = true := by decide
theorem test_meets_NumberFormatDecoding : 8 * 31 + 6 ≠ 0xFF ∧ (0xFE : Nat) < 0xFF := by decide

/-! ### Witnesses of the clauses on fences, poison, bundles and the mesh -/

/-- Behind an open local fence. -/
def fenced (a : Word64) (l : List Held) : Tile := { at1 a with fences := .fence 9 true false :: l }
theorem test_meets_LoadStoreResults_fenced : (node (fenced 0x2FFFF8 [])).ok = true ∧ (fenced 0x2FFFF8 []).zeroising = false ∧
    (fenced 0x2FFFF8 []).fenced = true ∧ PadAddr ((fenced 0x2FFFF8 []).getG 1 + (Imm.short 0).value).toNat 8 ∧
    (⟨2, some 7⟩ : Sent).bad = some 7 ∧ Issues (node (fenced 0x2FFFF8 [])) t0 1 [2, 3, 1] :=
  ⟨by decide, by decide, by decide, ⟨by decide, by decide⟩, rfl, by decide, by decide, by decide⟩
theorem test_meets_VectorMemoryResults_awaits : canIssue (node { core with awaitV := [31] }) t0 = true ∧
    (31 : Reg) ∈ ({ core with awaitV := [31] } : Tile).awaitV ∧ core.awaitV = [] ∧ (⟨31, some 63⟩ : Sent).bad = some 63 := by decide
theorem test_meets_MatrixDrainResults_fenced :
    (node (fenced 256 [])).ok = true ∧ (fenced 256 []).zeroising = false ∧ (fenced 256 []).fenced = true ∧
    matFull (fenced 256 []).mat = false ∧ Issues (node (fenced 256 [])) t0 2 [2, 1, 3] :=
  ⟨by decide, by decide, by decide, by decide, by decide, by decide, by decide⟩
/-- A drain, a bank load and an MMA that stand behind a fence, and the same without it. -/
theorem test_meets_MatrixEngineResults_behind :
    (let T : Tile := { (getTile (engine [.mma false 0 0 32 true []] none) t0) with fences := [.fence 9 true false, .drain, .acc, .mma] }
     T.behind .drain = 1 ∧ T.behind .acc = 1 ∧ ¬ T.behind .mma < (T.mat.queue.filter MatCmd.isMma).length) ∧
    (getTile (engine [.mma false 0 0 32 true []] none) t0).behind .mma <
      ((getTile (engine [.mma false 0 0 32 true []] none) t0).mat.queue.filter MatCmd.isMma).length ∧
    padRuns (node running) t0 = true ∧ (getTile (engine [] none) t0).zeroising = false := by decide
/-- The head of a queue behind its pad, read from the ring. -/
theorem test_meets_ReceiveQueueResults_head : (∀ w ∈ wordsOf (queued.skipPad (queued.getQ 15)).headOffset 16, mfind queued.ecc w = none) ∧
    (two queued core).mesh.flushing = [] ∧ (t1 : XY) ≠ t0 := ⟨fun _ _ => rfl, rfl, by decide⟩
theorem test_meets_QueueTimerResults_units : padRuns (two sending core) t0 = true ∧ sending.behind .msg = 0 ∧ sending.ecc = [] ∧
    sending.fences.contains (.send 63) = false ∧ sending.fences.contains (.put 63) = false ∧
    unitRuns (two (sender .opening 0) core) t0 = true := by decide
/-- A stream DMA with a gathered line, ended and not. -/
theorem test_meets_StreamLinkResults_flush : (getTile (linked 2) t0).ecc = [] ∧ (getTile (linked 2) t0).zeroising = false ∧
    (getTile (linked 2) t0).behind .dma = 0 ∧ (Calm (getTile (linked 2) t0) → False) ∧ neighbour (linked 2) t0 1 = some t1 :=
  ⟨by decide, by decide, by decide, fun h => absurd h.1 (by decide), by decide⟩

/-- A bundle of one section for tile (0, 0): no instruction words, AUTO, tag 7, queue mask 0x8000. -/
def sectionHead : List Byte := [1, 1, 7, 0, 0, 0, 0, 0, 0, 0, 0, 0x80] ++ zeros 48
def section1 : List Byte := sectionHead ++ natBytes 4 (crc32c (sectionHead ++ zeros 4))
def bundled : Tile := { slotted with mem := (Memory.store [] 0 ([1, 0, 1, 0] ++ natBytes 4 96 ++ zeros 24 ++ section1)), slots := [] }
def bundledAt : State := inPart (two bundled core)
theorem test_meets_ConfigInstructionResults_bundle : bundledAt.ok = true ∧ PadFree bundled ∧ bundled.su.loading = false ∧
    bundled.ecc = [] ∧ mrising bundled.slots = true ∧ (getPart bundledAt 0).cfg.reconf = 0 ∧ partOf bundledAt t0 = some 0 ∧
    (readBundle bundledAt t0 0 true).2 = some [section1] ∧
    [section1].find? (fun l => decide (secDest l = destOf t0)) = some section1 ∧
    maskOverlaps bundled 1 (secQmask section1) = false ∧
    maskOverlaps { bundled with slots := [(2, { valid := true, qmask := 0x8000 })] } 1 (secQmask section1) = true ∧
    (bundled.getG 2).toNat = 0 ∧ Issues bundledAt t0 1 [3, 2] :=
  ⟨by decide +kernel, ⟨rfl, by decide⟩, by decide, by decide, by decide, by decide, by decide, by decide +kernel, by decide +kernel,
    by decide +kernel, by decide +kernel, by decide, by decide, by decide, by decide⟩
theorem test_meets_ConfigInstructionResults_waits :
    (let T : Tile := { slotted with su := { cload := some ⟨1, 0, 2, true, none⟩ } }
     T.su.loading = true ∧ T.zeroising = false ∧ T.fenced = false ∧ (1 : BitVec 2) ≠ T.active) ∧
    ({ slotted with fences := [.fence 9 true false] } : Tile).fenced = true := by decide
/-- Slot 1 owns queue 15: with a record at its head, and with none. -/
def flushable (wp : Word32) : Tile :=
  { queued with multi := true, slots := [(1, { qmask := 0x8000 })], qu := { qs := [(15, { log2 := 12, maxmsg := 64, rp := 64, wp := wp })] } }
theorem test_meets_ConfigInstructionResults_queues : (two (flushable 128) core).ok = true ∧ (flushable 128).multi = true ∧
    mrising (flushable 128).qu.qs = true ∧ ((flushable 128).getSlot 1).qmask = 1#16 <<< 15 ∧ 6 ≤ ((flushable 128).getQ 15).log2.toNat ∧
    (flushable 128).headRec ((flushable 128).getQ 15) = some ⟨64, false, t1, 3, none, none⟩ ∧
    64 = ((flushable 128).getQ 15).used ∧ ((flushable 64).getQ 15).used = 0 ∧ mrising (flushable 128).su.inq = true ∧
    mrising (flushable 128).su.rings = true ∧ routeOf (two (flushable 128) core) true t0 t1 none ≠ .unreachable := by decide
theorem test_meets_ConfigPathResults_masks : maskOverlaps loading 1 (loading.getSlot 1).qmask = false ∧ loading.su.cfgNext = none ∧
    loading.su.cwait = [] ∧ loading.su.cload.map (fun r => (r.host, r.loads)) = some (none, true) := by decide
/-- A fence with a store behind it: no access before it, and an MMA before it. -/
def storeBehind : Tile := { core with fences := [.fence 5 true false, .store 0x2FFFF8 [1, 2] none] }
theorem test_meets_SystemResults_fences : (node storeBehind).ok = true ∧ padRuns (node storeBehind) t0 = true ∧ storeBehind.ecc = [] ∧
    localDone (node storeBehind) t0 = true ∧ localDone (node { storeBehind with mat := running.mat }) t0 = false ∧
    (let T : Tile := { core with fences := [.fence 5 false true], tx := [(0, ⟨.gst [], 0, 8, [0], false⟩)] }
     padRuns (node T) t0 = true ∧ T.tx ≠ []) ∧ (1 : Reg) = 1 := by decide
/-- Every tile of the partition has arrived with its CCLK running. -/
theorem all_arrived_running : ∀ t ∈ partTiles (barrier {}) arrivedPart, t.key ∈ arrivedPart.arrived ∧ clockOn (barrier {}) t = true :=
  have h : (partTiles (barrier {}) arrivedPart).all (clockOn (barrier {})) = true := by decide +kernel
  fun t ht => ⟨all_arrived t ht, List.all_eq_true.mp h t ht⟩
theorem test_meets_StepReleases_taint : (barrier {}).boot.resetting = none ∧ arrivedPart.resetting = none ∧
    (getTile { barrier {} with tiles := [(0, { core with st := .barrier, stepD := some 5 })] } t0).stepD = some 5 ∧
    ({ arrivedPart with taint := true, cfg := { policy := 1 } } : Part).taint = true := by decide
theorem test_meets_SpareWalkResults_settled : rowSettled idle 48 15 = true ∧ (∀ u, (getTile idle u).raised = []) ∧
    (getField idle 48).stopped = false ∧ ((getRow (barrier { due := [0] }) 0 0).due.head? = some 0) :=
  ⟨by decide +kernel, fun _ => rfl, by decide, by decide⟩
/-- A row whose corrected data waits, and a site whose bank is to be read. -/
theorem test_meets_SpareWalkResults_rows : padRuns (node { core with wback := [(49151, true)] }) t0 = true ∧
    mfind ({ core with wback := [(49151, true)] } : Tile).wback 49151 = some true ∧ mrising ([(49151, true)] : SMap Bool) = true ∧
    (getRow (node core) 0 0).kind ≠ .broken ∧ (getRow (node core) 0 0).e ≤ 16 ∧ (getBlock (node core) 0).stopped = false ∧
    (node core).clk.lost = false ∧ zeroClock (node { core with zeroising := true }) t0 = true := by decide
theorem test_meets_ControlBlockWrites_masks :
    (let T : Tile := { core with slots := [(1, { valid := true, qmask := 0x8000 })] }
     tileLive (node T) t0 = true ∧ T.activeSlot.ovNext = false ∧ mrising T.slots = true ∧
       (0x0001000080000000 : Word64).getLsbD 48 = true ∧
       maskOverlaps T 2 ((0x0001000080000000 : Word64).extractLsb' 16 16) = true ∧
       maskOverlaps T 1 ((0x0001000080000000 : Word64).extractLsb' 16 16) = false) := by decide

/-- A train just injected, at the port of its source. -/
def entering : State := (addPkt (inPart (two core core)) { moving with payload := zeros 64, len := 64 })
theorem test_meets_TrainAndResponseResults_hop : entering.mesh.pkts.length = 1 ∧
    (match mfind entering.mesh.pkts 0 with
     | none => false
     | some k => hopFree entering 0 k && isFront entering 0 k && k.loc.isNone && decide (k.at_ = t0) && decide (k.route = .direct)
         && !(hopFree { entering with mesh := { entering.mesh with
             pkts := entering.mesh.pkts ++ [(1, { k with trail := [(k.next, 16)], at_ := t1 })] } } 0 k)) = true := by decide
theorem test_meets_TrainAndResponseResults_flits :
    1 < ({ moving with payload := zeros 8256, len := 8256 } : Pkt).packets ∧ 0 < moving.packets ∧ moving.tag < 64 ∧
    moving.ctx < 256 ∧ moving.src.inGrid = true ∧ moving.dst.inGrid = true ∧ moving.mid.inGrid = true ∧ moving.len ≤ 8192 ∧
    waitingTx.fences.contains (.land 63) = false := by decide +kernel
/-- A DRAM read under keys that are held, and requests that meet a refresh or a calibration. -/
theorem test_meets_DramServesRequests_keys :
    (let s := { dcarry .readReq {} with parts := [(0, { st := .bound, w := 1, h := 1, key := true })] }
     keyHeld s 0 = true ∧ mayReach s (dpkt .readReq) = true ∧ windowHolds s (dpkt .readReq) = false) ∧
    windowHolds (dcarry .write { channels := [((dramMap (dcarry .write {}) 0x010000000000).2, { calibrating := true })] })
      (dpkt .write) = true := by decide

/-! ### Witnesses of the clauses on hosts, requests, scale-out, power and the boot -/

theorem test_meets_HostWindowResults_bus :
    (let s := hosted .bound { fns := [(0, { enable := true })] }
     degraded { s with fields := [(21, { power := .offShort })] } .a = true ∧
     bar2Part { s with fields := [(21, { power := .offShort })] } ⟨.a, 0⟩ 0x2FFFF8 = some 0) ∧
    busPieces 512 9 0x11FC 8 = [(0x11FC, 4), (0x1200, 4)] ∧
    (let s := wcarry (pkt .readReq (.host .a)) { regions := windows }
     (portOf s .a).reads.length + (portOf s .a).flushes.length < 512 ∧ (windowRegion s .a (pkt .readReq (.host .a))).isSome = true ∧
     (∀ e ∈ (portOf s .a).qps, ∀ c ∈ e.2.cmds, c.run = none)) := by decide +kernel
theorem test_meets_PortAndQueuePairResults_vectors :
    (let s := hosted .bound { qps := [(255, { qpair [] [] with pendIrq := true })], fns := [(0, { enable := true })] }
     getPair s .a 255 = some { qpair [] [] with pendIrq := true } ∧ (mget {} (getFn s ⟨.a, 0⟩).msix 2047).masked = false ∧
     (mget {} (getFn s ⟨.a, 0⟩).msix 2).masked = false) ∧
    (mget {} ({ msix := [(2, { masked := true })] } : FnState).msix 2).masked = true := by decide
/-- A COPY to the host whose flushing read is out. -/
def flushRun : CopyRun := ⟨0, 0x1000, 16, false, true, [], 1, [], none, true⟩
def flushCmd : HostCmd := ⟨7, cmdBytes 3 [], true, some flushRun, []⟩
theorem test_meets_HostCommandResults_flush :
    (let s := hosted .bound { qps := [(0, qpair [flushCmd] [])], flushes := [(5, (0, 7))] }
     s.ok = true ∧ (portOf s .a).qps = [(0, qpair [flushCmd] [])] ∧ flushCmd.opcode = 3 ∧ flushCmd.noCqe = false ∧
     mfind (portOf s .a).reads 5 = none ∧ mfind (portOf s .a).flushes 5 = some (0, flushCmd.id)) := by decide
theorem test_meets_HostCommandResults_signal :
    (let c := hcmd 6 (zeros 16 ++ [1] ++ zeros 7 ++ [1, 0xFF, 0x07]) false
     ready .running c = true ∧ c.at 41 2 < vectorsOf 0 ∧ c.at 40 1 = 1 ∧ c.at 16 8 % 8 = 0) ∧
    (let c := hcmd 6 (zeros 24 ++ [0, 0, 8]) false
     ready .running c = true ∧ vectorsOf 0 ≤ c.at 41 2) ∧
    (let c := hcmd 6 (zeros 16 ++ [1] ++ zeros 7 ++ [3]) false
     c.at 40 1 = 3 ∧ 0 < c.at 32 8) := by decide +kernel

theorem test_meets_AceelResults_frames :
    (let h := rq 1 0x1000 9 0 0
     h.ep = .mctp .a 8 ∧ managed (hosted .idle {}) .a = true ∧ (hosted .idle {}).aceel.waiting = [] ∧ discards h [] = false ∧
       discards { h with env := { h.env with selector := 0 } } [] = true ∧ discards { h with env := { h.env with vangoa := false } } [1] = true ∧
       discards (rq 0 0x1000 9 0 0) [] = false ∧ discards (rq 255 0x1000 9 0 0) [] = false ∧
       h.flags < 2 ∧ h.status = 0 ∧ h.len ≤ 4080) ∧
    discards (rq 2 0x2401 1 1 0) [1] = false ∧ awaited (hosted .idle {}) (hosted .idle {}) (rq 2 0x2401 1 1 0) [1] = none ∧
    discards (rq 4 0x8012 0 256 0) (zeros 256) = false ∧ discards (rq 5 0x1000 9 4 0) (natBytes 4 100) = false ∧
    discards (rq 3 0x5801 0 16 0) [] = false := by decide +kernel
theorem test_meets_AceelResults_waiting :
    (let s := hosted .bound {}
     let x := doWrite s (.mctp .a 8) 0x2011 0 [9] false true
     awaited s x.1 (rq 2 0x2011 0 1 0) [9] = some ⟨rq 2 0x2011 0 1 0, [9], some 0, []⟩ ∧
       Waits.ended ⟨rq 2 0x2011 0 1 0, [9], some 0, []⟩ x.1 = false ∧ seesBeacon s (rq 2 0x2011 0 1 0) = s ∧ discards (rq 2 0x2011 0 1 0) [9] = false ∧ x.1.boot.silent = false ∧
       x.1.aceel.waiting = [] ∧ (getPart x.1 0).resetting ≠ none ∧ x.2 = 0) := by decide +kernel

theorem test_meets_XdtReceiveResults_arrivals : ({ xf 0 false with arrival := .icrc } : XFrame).arrival.badHeader = true ∧
    ({ xf 0 false with arrival := .fcs } : XFrame).arrival = .fcs ∧ (xf 0 false).arrival = .good ∧ (xconn .opened).serves = [] ∧
    (xconn .opened).lastNak = none ∧ (xconn .opened).window ≤ 4096 ∧ (xconn .opened).unackedRx < 15 := by decide
theorem test_meets_XdtSendResults_turn :
    (let s := xstate { xconn .opened with fresh := [⟨1, xf 0 false⟩] }
     sendTurn s (1 / 256) = some 1 ∧ (getConn s 1).resend = [] ∧ (getConn s 1).quiet + 55000 ≤ ({ s with clk := { gtc := 55000 } } : State).clk.gtc) ∧
    sendTurn (xstate { xconn .opened with resend := [⟨1, xf 0 false⟩] }) 0 = some 1 ∧
    (xstate (xconn .opened)).clk.gtc < ({ xconn .opened with started := 1 } : Conn).paced := by decide +kernel
theorem test_meets_ApertureAndPortResults_link : ethReceives (xstate (xconn .opened)) 0 = true ∧
    mrising (xstate (xconn .opened)).xdt.eths = true ∧
    (∃ e : PtpEvent, e.transmit = true) ∧ (∃ e : PtpEvent, e.transmit = false ∧ 1000000 < e.offsetNs) := by
  refine ⟨by decide, by decide, ⟨⟨true, 0, 0⟩, rfl⟩, ⟨⟨false, 1000001, 0⟩, rfl, by decide⟩⟩
theorem test_meets_ClockResults_pulse : syncField idle = some 24 ∧ fieldAlive idle 24 = true ∧ fieldAlive idle 48 = true ∧
    idle.boot.resetting ≠ some .full ∧ mrising idle.totals = true ∧ (-5 : Int) < -4 ∧ (4 : Int) < 5 := by decide
theorem test_meets_PowerResults_trip : idle.boot.st ≠ .booting ∧ mrising idle.fields = true ∧ mrising idle.totals = true ∧
    (⟨3, 2⟩ : XY).field = 0 := by decide
theorem test_meets_ThermalResults_detectors : 63 / 4 = 15 ∧ idle.boot.st ≠ .booting ∧ (getField idle 48).cyc.toNat % 16 = 0 ∧
    (getField { idle with fields := [(48, { cyc := 1 })] } 48).cyc.toNat % 16 ≠ 0 ∧ (getField idle 48).stopped = false ∧
    idle.clk.lost = false := by decide
theorem test_meets_ControllerResults_raised : 13 ∈ ({ core with raised := [13] } : Tile).raised ∧ 13 ∉ core.raised ∧
    (getField (node core) 0).hung = false ∧ eventClass (node core) t0 0 ≠ none := by decide
theorem test_meets_ResetEndResults_ends :
    (let P : Part := { getPart (hosted .bound {}) 0 with resetting := some ⟨false, false, true, 0, 0, none⟩ }
     P.resetting = some ⟨false, false, true, 0, 0, none⟩) ∧
    (let P : Part := { getPart (hosted .bound {}) 0 with resetting := some ⟨true, false, true, 0, 0, none⟩ }
     let u : State := { hosted .bound {} with parts := [(0, P)], aceel := { waiting := [⟨rq 2 0x2011 0 1 0, [9], some 0, []⟩] } }
     u.ok = true ∧ u.aceel.waiting = [⟨rq 2 0x2011 0 1 0, [9], some 0, []⟩] ∧ u.boot.resetting = none ∧
       (∀ t ∈ partTiles u P, (getTile u t).raised = [])) := by decide +kernel
/-- A cold boot in its steps 2, 3, 4 and 5. -/
def booting (n : Byte) : State :=
  { power := { on := true }, boot := { step := n, facts := some ⟨false, true, true, [24], [], [true], 3, 3, false⟩, master := some 24 },
    clk := { goodA := true, goodB := true } }
theorem test_meets_BootResults_steps :
    (∀ n, (booting n).power.on = true ∧ (booting n).boot.st = .booting ∧ (booting n).boot.deaths = 0) ∧
    (({ booting 2 with clk := {} } : State).clk.goodA = false) ∧ (booting 2).boot.step = 2 ∧
    (let r := reread (runBoot (booting 5) ⟨false, true, true, [24], [], [true], 3, 3, false⟩) 0 ⟨false, true, true, [24], [], [true], 3, 3, false⟩
     r.boot.st = .booting ∧ r.clk.lost = false) ∧ (booting 5).dram.mem.wf = true ∧ fieldAlive (booting 5) 24 = true ∧
    State.reset.boot.facts = none :=
  ⟨fun _ => ⟨rfl, rfl, rfl⟩, rfl, rfl, by decide, by decide, by decide, by decide⟩
theorem test_meets_SecurityResults_unlock :
    (let s : State := { hosted .idle {} with sec := { unlocking := some 1 } }
     s.parts.length = 1 ∧ (getPart s 0).st ≠ .free ∧ (getPart s 0).ctx = none ∧ s.xdt.conns = [] ∧ s.dram.held = [] ∧
       s.sec.unlocking = some 1) ∧ managed (hosted .idle {}) .a = true ∧ (hosted .idle {}).clk.lost = false ∧
    (hosted .idle {}).aceel.waiting = [] := by decide

/-- Every tile of the partition has slot 0 valid with the same tag, and is halted. -/
def fullField : SMap Tile := (List.range 16).flatMap (fun y => (List.range 16).map (fun x => (112 * y + x, { st := .halt, slots := [(0, { valid := true })] })))
theorem test_meets_HostCommandResults_launch :
    (let s : State := { cmding .bound (hcmd 2 [] false) with tiles := fullField }
     launchable s (partTiles s (getPart s 0)) 0 = true ∧ ∀ t ∈ partTiles s (getPart s 0), (getTile s t).st = .halt) := by
  decide +kernel

/-! ### Witnesses of parity, random draws and the other clauses on tiles -/

/-- CCLK of field 0 runs and its count is at the odd cycle of OP2; CCLK of field 48 is stopped. -/
theorem test_meets_StepFetches_tick :
    (let v : State := { idle with fields := [(0, { locked with op := 2, half := true }), (48, { locked with stopped := true })], clk := { active := some .a, frac := 2 ^ 32 - 1 } }
     v.clk.frac < 2 ^ 32 ∧ v.clk.gtc + 8 < 2 ^ 64 ∧ mrising v.fields = true ∧ (getField v 0).gtcOff = 0 ∧
     (getField v 0).gtcHeld = false ∧ cclkRuns v 0 = true ∧ cclkRuns v 48 = false ∧
     [12, 10, 9, 8, 6][(getField v 0).op]? = some 9 ∧ -2147484 ≤ v.xdt.rateAdj ∧ v.xdt.rateAdj ≤ 2147484) := by decide +kernel
theorem test_meets_IssueRules_form : (Instr.sel t0 1 2 3).form = some (t0, 1, [1, 2, 3], true) ∧
    (Instr.slli t0 1 2 (.short 64)).form = some (t0, 1, [1, 2], false) ∧ (31 : Reg) ∈ (Instr.vst t0 ⟨31, none⟩ 1 0).vecs ∧
    4096 < ({ core with pc := 4095 } : Tile).pc.toNat + 2 ∧ canIssue (node { core with awaitV := [31] }) t0 = true ∧
    canIssue (node { core with await := [3] }) t0 = true := by decide
theorem test_meets_LoadStoreResults_words :
    (let T : Tile := { at1 0x2FFFF8 with ecc := [(393215, .single)] }
     let U : Tile := { at1 0x2FFFF8 with ecc := [(393215, .bad)] }
     mfind T.ecc (0x2FFFF8 / 8) = some .single ∧ mfind U.ecc (0x2FFFF8 / 8) = some .bad ∧ mrising (node T).sites = true ∧
     mrising (node T).parts = true ∧ (node T).xdt.conns = [] ∧ (node U).ok = true ∧ (⟨2, some 7⟩ : Sent).bad = some 7) := by decide
theorem test_meets_ConversionResults_draw : core.drawing = false ∧ core.awaitV = [] ∧ (genDraws core.gen 32).length = 32 := by
  decide +kernel
theorem test_meets_MatrixDrainResults_draw : core.drawing = false ∧ core.zeroising = false ∧ (fmtOf 2).isSome = true ∧
    (node passing).xdt.conns = [] ∧ mrising (node passing).sites = true ∧ mrising (node passing).parts = true ∧
    (core.getG 1).toNat % 256 = 0 ∧ ((at1 0x2FFF00).getG 1).toNat + 16384 > 0x300000 := by decide
theorem test_meets_MatrixEngineResults_drain :
    (let s := node { core with mat := { drain := [⟨⟨1, some 63⟩, 0x0A, false, true, 64, zeros 64⟩] } }
     s.ok = true ∧ (getTile s t0).mat.drain = [⟨⟨1, some 63⟩, 0x0A, false, true, 64, zeros 64⟩] ∧ s.xdt.conns = [] ∧
     (getSite s (siteOf s t0)).lastMismatch = none ∧ (getTile s t0).behind .drain = 0 ∧ unitRuns s t0 = true) ∧
    (let T : Tile := { core with mat := { drain := [⟨⟨1, none⟩, 0, false, false, 64, [7]⟩] }, zeroising := true }
     T.zeroising = true ∧ unitRuns (node T) t0 = true) := by decide
/-- No header is bad at the head of the ring. -/
theorem test_meets_ReceiveQueueResults_words : (∀ w ∈ wordsOf (queued.getQ 15).headOffset 16, mfind queued.ecc w = none) ∧
    queued.zeroising = false ∧ (queued.getQ 15).used ≠ 0 ∧ queued.skipPad (queued.getQ 15) ≠ queued.getQ 15 :=
  ⟨fun _ _ => rfl, rfl, by decide, by decide⟩
/-- A channel that is not pinned, to a queue of tile (1, 0). -/
def free_ : Tile :=
  { sender .opened 64 with qu := { chans := [(5, { chan .opened 64 with pin := false })] } }
theorem test_meets_SendChannelResults_unpinned :
    (let s := held { st := .bound } free_
     s.ok = true ∧ (free_.getChan 5).pin = false ∧ free_.drawing = false ∧ portBusy s t0 = false ∧
     chanEnd s (free_.getChan 5) = some (t1, .tile) ∧ partOf s t0 = some 0 ∧ (getPart s 0).cfg.box = 0 ∧
     free_.qu.out.length + 1 < 8 ∧ (free_.getG 2).toNat % 64 = 0 ∧ 0 < (free_.getG 3).toNat ∧
     (free_.getG 3).toNat ≤ (free_.getChan 5).win) ∧
    (let s := held { st := .bound, cfg := { box := 1 } } free_
     (getPart s 0).cfg.box ≠ 0 ∧ chanEnd s (free_.getChan 5) = some (t1, .tile)) ∧ partOf (node free_) t0 = none := by decide
theorem test_meets_QueueTimerResults_closing :
    (let T : Tile := sender .closing 128
     (T.getChan 5).st = .closing ∧ unitRuns (two T core) t0 = true ∧ mrising T.qu.chans = true ∧ (two T core).ok = true) ∧
    portBusy (two sending core) t0 = false ∧ (chan .closing 128).closeSent = false := by decide
theorem test_meets_StreamInstructionResults_sputm : streamer.fenced = false ∧ streamer.behind .dma = 0 ∧ streamer.ecc = [] ∧
    streamer.zeroising = false ∧ streamer.awaitV = [] ∧ streamer.multi = false := by decide
theorem test_meets_ConfigInstructionResults_flushQ : slotted.vecEmpty = true ∧ mrising slotted.slots = true ∧
    (flushable 128).ecc = [] ∧ (flushable 128).zeroising = false ∧ (1 : BitVec 2) ≠ (flushable 128).active ∧
    (flushable 128).inputs 0 = [] := by decide
/-- A spare site whose row is not broken and whose CCLK runs, with a single-bit error at its first bank. -/
theorem test_meets_SpareWalkResults_spare :
    (let a : SiteId := ⟨48, 15, (getRow idle 48 15).e⟩
     a.valid = true ∧ fieldAlive idle 48 = true ∧ siteClock idle a = true ∧ (getRow idle a.field a.row).kind ≠ .broken ∧
     tileAt idle a = none ∧ mrising idle.sites = true ∧ (getSite idle a).bad = [] ∧ (getBlock idle (SiteId.block a)).stopped = false ∧
     (getField idle 48).hung = false) := by decide +kernel
theorem test_meets_SpareWalkResults_zeroise :
    (let T : Tile := { core with zeroising := true }
     zeroClock (node T) t0 = true ∧ T.su.cwait = [] ∧ Calm T ∧ (node T).ok = true ∧ siteClock (node T) ⟨0, 0, 0⟩ = true) :=
  ⟨by decide, rfl, ⟨rfl, fun _ => rfl, by decide⟩, by decide, by decide⟩
theorem test_meets_ControlBlockWrites_clock : tileReached (node core) t0 = true ∧ clockOn (node core) t0 = true ∧
    (let s := { node core with fields := [(0, { locked with stopped := true })] }
     tileReached s t0 = true ∧ clockOn s t0 = false) ∧ ({ core with run := false } : Tile).st ≠ .fault ∧
    (0x58 : Half).toNat = 0x58 ∧ (0x9E8 : Half).toNat = 0x808 + 32 * 15 := by decide

/-! ### Witnesses of the clauses on legs, parity on the way, requests and the whole block -/

/-- A train half way to its intermediate tile, and one that has passed its waypoint. -/
theorem test_meets_TrainAndResponseResults_legs :
    (let k : Pkt := { moving with dst := ⟨3, 0⟩, route := .valiant ⟨1, 0⟩, trail := [(⟨t0, t0, 0, 0⟩, 1)] }
     let s := carry k core
     mfind s.mesh.pkts 3 = some k ∧ (k.passedMid || decide (k.at_ = ⟨1, 0⟩)) = false ∧ k.at_ ≠ ⟨1, 0⟩ ∧ hopFenced s k k.at_ t1 = false ∧
     hopFree s 3 { k with passedMid := false } = true ∧ k.loc = none ∧ k.flits ≠ 0) ∧
    (let k : Pkt := { moving with at_ := t1, dst := t0, passedMid := true, route := .detour t1 }
     let s := carry k core
     k.at_ ≠ k.dst ∧ hopFenced s k k.at_ t0 = false ∧ hopFree s 3 k = true ∧ isFront s 3 k = true ∧
     hopFenced { s with power := {} } k k.at_ t0 = true) ∧ (pkt .readRsp .tile).parBad = none := by decide +kernel
theorem test_meets_TileServesRequests_parity :
    (let k : Pkt := { pkt .write .tile with parBad := some 7 }
     mayReach (carry k core) k = true ∧ k.parBad = some 7 ∧ 7 < k.payload.length ∧ (carry k core).xdt.conns = [] ∧
     mrising (carry k core).parts = true ∧ takes (carry k core) t0 = true) ∧
    (pkt .write .tile).loc = none ∧ (pkt .write .tile).remote = none := by decide
/-- A record that does not fit before the ring's end: with room for pad and record, and without. -/
theorem test_meets_MessageLands_pad :
    (let k : Pkt := { pkt .msg .tile with len := 64, payload := zeros 64 }
     let T : Tile := { core with qu := { qs := [(15, { log2 := 12, maxmsg := 64, wp := 4032, rp := 192 })] } }
     let Q := T.getQ 15
     (carry k T).ok = true ∧ k.payload.length = k.len ∧ Q.log2 ≠ 0 ∧ k.len ≤ Q.maxmsg.toNat ∧ 2 ^ 12 - 4032 < 128 ∧
     64 + 128 + (Q.wp - Q.rp).toNat ≤ 2 ^ Q.log2.toNat) ∧
    (let Q : Queue := { log2 := 12, maxmsg := 64, wp := 4032, rp := 64 }
     2 ^ Q.log2.toNat < 64 + 128 + (Q.wp - Q.rp).toNat) ∧ (pkt .msg .tile).parBad = none := by decide
theorem test_meets_ChannelProtocol_tags : (pkt .openRsp .tile).tag ≠ ((opening .opening).getChan 5).tag ∧
    ({ pkt .openRsp .tile with tag := 0 } : Pkt).tag = ((opening .opening).getChan 5).tag ∧
    ({ pkt .openRsp .tile with status := 5 } : Pkt).status ≠ 0 ∧ (pkt .openRsp .tile).status = 0 := by decide
theorem test_meets_DramServesRequests_shut :
    (let c := (dramMap (dcarry .readReq {}) 0x010000000000).2
     chanShut (dcarry .readReq {}) c = false ∧
     chanShut (dcarry .readReq { channels := [(c, { faulted := true })] }) c = true ∧
     mayReach (dcarry .readReq { channels := [(c, { faulted := true })] }) (dpkt .readReq) = true) ∧
    (dpkt .readReq).poison = false := by decide +kernel
theorem test_meets_DramEventResults_rest : dcPowered idle 27 = true ∧ dcRests idle 27 = false ∧ idle.dram.held = [] ∧
    (let s : State := { idle with dram := { selfRefresh := true } }
     dcPowered s 27 = true ∧ dcRests s 27 = true) ∧ (getChannel idle 223).calibrating = false ∧
    (getComplex { idle with dram := { complexes := [(27, { extraCal := 8 })] } } 27).extraCal = 8 := by decide +kernel
theorem test_meets_SettingWriteResults_records :
    (let s : State := { idle with tests := { requests := [⟨1, 48, 0, 0⟩] } }
     s.tests.requests[0]? = some ⟨1, 48, 0, 0⟩ ∧ s.boot.st = .ready) ∧
    visitable idle ⟨0, 48, 15, 16⟩ = true ∧
    visitable { idle with fields := [(48, { power := .offShort })] } ⟨0, 48, 15, 16⟩ = false := by decide +kernel
theorem test_meets_AceelResults_packets :
    (let h := { rq 2 0x2401 1 1 0 with env := { ({} : Envelope) with packets := some [⟨true, false, 0, 21⟩, ⟨false, true, 2, 1⟩] } }
     h.env.packets = some [⟨true, false, 0, 21⟩, ⟨false, true, 2, 1⟩] ∧
     assembles (4 + frameLen h [1]) [⟨true, false, 0, 21⟩, ⟨false, true, 2, 1⟩] = false) := by decide

/-- A LAST frame for connection 1. -/
def lastFrame (ctrl : Bool) (l : List Byte) : XFrame := { xf 0 false with last := true, ctrl := ctrl, payload := l, length := 8, addr := 0x100000 }
/-- The bytes of an OPEN record for tile (0, 0), and of an ERROR record. -/
def openRecord : List Byte := natBytes 16 3
def errorRecord : List Byte := natBytes 16 13
/-- Connection 1 carries the request apPkt as its message 0. -/
def asked : State := xstate { xconn .opened with requests := [(0, apPkt)] }
theorem test_meets_XdtReceiveResults_last :
    (let s := xstate (xconn .opened)
     (lastFrame false [1]).arrival = .good ∧ matchConn s 0 (lastFrame false [1]) = some 1 ∧
     BitVec.ofNat 32 (lastFrame false [1]).psn = (getConn s 1).expPsn ∧ (lastFrame false [1]).last = true ∧
     (getConn s 1).serves = [] ∧ connTile s 1 = some ⟨33, 0⟩ ∧ s.mesh.flushing = [] ∧ peerTileOk s 1 t0 = true ∧
     (lastFrame false [1]).dtile = t0 ∧ routeOf s false ⟨33, 0⟩ t0 none ≠ .unreachable ∧
     routeOf s true ⟨33, 0⟩ t0 none ≠ .unreachable ∧ peerTileOk { s with parts := [] } 1 t0 = false) ∧
    servePieces 0x100000 8 = [(0x100000, 8)] ∧ endpoint (xstate (xconn .opened)) 0x100000 = some (t0, .tile) ∧
    (endpoint (xstate (xconn .opened)) 0x0A0000000000).map (·.2) = some (.cuffN false) := by
  decide +kernel
theorem test_meets_XdtReceiveResults_records :
    (let v := leNat openRecord
     (lastFrame true openRecord).ctrl = true ∧ v % 16 = 3 ∧ (⟨bits v 12 6, bits v 19 13⟩ : XY) = t0) ∧
    leNat (natBytes 16 4) % 16 = 4 ∧ leNat (natBytes 16 10) % 16 = 10 ∧ leNat (natBytes 16 11) % 16 = 11 ∧
    leNat (natBytes 16 12) % 16 = 12 ∧ leNat errorRecord % 16 = 13 ∧
    mfind (getConn asked 1).requests (lastFrame true errorRecord).msgid = some apPkt ∧ mrising (getConn asked 1).requests = true ∧
    routeOf asked true apPkt.dst apPkt.src none ≠ .unreachable ∧
    mfind (getConn asked 1).requests (lastFrame false (zeros 8)).msgid = some apPkt ∧ connTile asked 1 = some ⟨33, 0⟩ := by decide +kernel
/-- The clauses on a CNP: a routed connection, and one in L2. -/
theorem test_meets_XdtReceiveResults_cnp : (xconn .opened).routed = false ∧
    ({ xconn .opened with desc := [5, 0, 2, 0, 1, 0, 0, 0] ++ zeros 32 |>.set 1 0 } : Conn).lastCut = none ∧
    ({ desc := (xconn .opened).desc.set 0 7 } : Conn).routed = true := by decide
theorem test_meets_ApertureAndPortResults_poison :
    (let k : Pkt := { apPkt with poison := true }
     let s := { xstate (xconn .opened) with mesh := { pkts := [(3, k)], nextId := 4 } }
     mfind s.mesh.pkts 3 = some k ∧ k.type = .readReq ∧ k.unit = .cuffN false) ∧ apPkt.poison = false ∧
    liveEntry (xstate (xconn .opened)) 0x7004 1 ≠ some (zeros 16) ∧ (xstate (xconn .opened)).boot.silent = false ∧
    linkLocal (Config.baseMac + 1 + 0) = linkLocal (Config.baseMac + 1 + 0) := by
  refine ⟨by decide, rfl, by decide, rfl, rfl⟩
theorem test_meets_ClockResults_none :
    (let s : State := { idle with clk := { active := none, goodA := true } }
     s.clk.active = none ∧ refGood s .a = true ∧ refGood s .b = false) ∧ (∀ e ∈ idle.tiles, e.2.traceHeld = []) :=
  ⟨by decide, fun _ h => absurd h List.not_mem_nil⟩
theorem test_meets_ControllerResults_lane :
    (let T : Tile := { core with raised := [evLane] }
     T.raisedAs evParity = evLane ∧ evLane ∈ T.raised ∧ core.raisedAs evEccUe = evEccUe ∧
     ({ core with raised := [evParity, evLane] } : Tile).raisedAs evParity = evParity) ∧
    eventClass (node core) t0 evLane ≠ eventClass (node core) t0 evParity := by decide
theorem test_meets_ResetEndResults_zeroise :
    (let P : Part := { getPart (hosted .bound {}) 0 with resetting := some ⟨false, false, true, 0, 0, none⟩ }
     let u : State := { hosted .bound {} with parts := [(0, P)], fields := [(0, locked)], tiles := [(0, { zeroising := true })] }
     u.ok = true ∧ t0 ∈ partTiles u P ∧ (getTile u t0).zeroising = true ∧ zeroClock u t0 = true ∧
     (∀ t ∈ partTiles { u with tiles := [] } P, (getTile { u with tiles := [] } t).zeroising = false)) := by decide +kernel
/-- Step 1 in its last tick, with and without PERST#; a fault latched with PWR_EN low for long. -/
theorem test_meets_BootResults_first :
    (let b : BootFacts := ⟨false, true, true, [24], [], [true], 3, 3, false⟩
     let s : State := { power := { on := true }, boot := { step := 1, facts := some b, elapsed := 119999998 } }
     s.pending = [] ∧ s.boot.st = .booting ∧ s.tiles = [] ∧ (portOf s .a).linkUp = false ∧ 120000000 ≤ s.boot.elapsed + 2 ∧
     ({ b with lowLong := true } : BootFacts).lowLong = true) ∧
    (let s : State := { State.reset with pins := { faultLatched := true } }
     s.pins.pwrEn = false ∧ s.pins.faultLatched = true) := by decide
theorem test_meets_PowerResults_reset : ({ idle with boot := { st := .computeReset } } : State).boot.st = .computeReset ∧
    mrising idle.fields = true ∧ (idle.power.converters = 8) := by decide

/-! ### Witnesses of further clauses -/

theorem test_meets_ControlBlockAccess_reads : (node core).ok = true ∧ t0.inGrid = true ∧ (⟨111, 111⟩ : XY).inGrid = true ∧
    (getField (node core) 0).cap ≤ 16 ∧ gtcOf (node core) 0 < 2 ^ 64 ∧ core.st = .run := by decide
/-- A bank whose load arrives with wrong parity. -/
theorem test_meets_MatrixEngineResults_parity :
    (let T : Tile := { core with mat := { accLoad := [(true, 0, true)] } }
     T.mat.accLoad = [(true, 0, true)] ∧ T.behind .acc ≤ 0 ∧ mrising (node T).parts = true ∧ (node T).ok = true) := by decide
theorem test_meets_ReceiveQueueResults_parity : (queued.getQ 15).used ≠ 0 ∧ mrising (two queued core).parts = true := by decide
/-- The timers of a tile run while its CCLK is stopped; the port awaits the data of a BAR2 read. -/
theorem test_meets_QueueTimerResults_stopped :
    (let s : State := { two sending core with fields := [(0, { locked with stopped := true })] }
     timersRun s t0 = true ∧ unitRuns s t0 = false ∧ s.ok = true) ∧
    (let s := hosted .bound { bar2 := [(4, (⟨.a, 0⟩, 4))] }
     s.power.on = true ∧ mfind (portOf s .a).bar2 4 = some (⟨.a, 0⟩, 4) ∧ mrising (portOf s .a).bar2 = true) := by decide
theorem test_meets_ConfigInstructionResults_parity :
    (let T : Tile := { slotted with g := [(1, 32)] }
     (T.getG 1).toNat % 32 = 0 ∧ (T.getG 1).toNat + 32 ≤ 0x300000 ∧ T.ecc = [] ∧ (two T core).ok = true) := by decide
/-- A spare row whose step may be taken; a vacated site that still zeroises. -/
theorem test_meets_SpareWalkResults_clocked : fieldClocked idle 48 = true ∧ fieldClocked (barrier {}) 0 = true ∧
    (let s : State := { idle with sites := [((⟨0, 0, 16⟩ : SiteId).key, { zeroLeft := 5 })] }
     (getSite s ⟨0, 0, 16⟩).zeroLeft ≠ 0 ∧ tileAt s ⟨0, 0, 16⟩ = none ∧ siteClock s ⟨0, 0, 16⟩ = true) ∧
    tileAt idle ⟨0, 0, 16⟩ = none ∧ (getSite idle ⟨0, 0, 16⟩).zeroLeft = 0 ∧ siteClock idle ⟨0, 0, 16⟩ = true := by decide
/-- MULTI_SLOT of a tile with a token in an entry, and of one without. -/
theorem test_meets_ControlBlockWrites_multi :
    (let T : Tile := { slots := [(0, { valid := true })] }
     T.run = false ∧ T.quiet = true ∧ (2#64).getLsbD 1 ≠ T.multi ∧ (2#64).getLsbD 0 = false ∧ (3#64).getLsbD 1 ≠ T.multi ∧
       (3#64).getLsbD 0 = true ∧ T.st ≠ .fault ∧ T.activeSlot.valid = true ∧ T.activeSlot.auto = false) ∧
    (let T : Tile := { su := { inq := [(1, [tok 0])] } }
     T.run = false ∧ T.quiet = false ∧ (2#64).getLsbD 1 ≠ T.multi ∧ T.event.getLsbD evCtrlRefused = false ∧
       tileReached (node T) t0 = true ∧ (node T).ok = true) := by decide
/-- A train with flits at the port of its source. -/
theorem test_meets_TrainAndResponseResults_port :
    (let k : Pkt := { moving with trail := [(⟨t0, t0, 1, 0⟩, 2)] }
     k.flits ≠ 0 ∧ k.at_ ≠ k.dst ∧ k.loc = none ∧ hopFenced (carry k core) k t0 t1 = false) := by decide
/-- A GDMA.PUT whose unit is attached at its own tile. -/
theorem test_meets_DramServesRequests_put :
    (let k : Pkt := { dpkt .write with src := t0, loc := some 64 }
     Brings (carry k core) k ((getTile (carry k core) t0).mem.bytes 64 8) ∧ k.span = 8) ∧
    (let k : Pkt := { pkt .write (.host .a) with src := t0, loc := some 64 }
     Brings (wcarry k {}) k ((getTile (wcarry k {}) t0).mem.bytes 64 8)) ∧
    (∀ s, Brings s (dpkt .readReq) (dpkt .readReq).payload) :=
  ⟨⟨Or.inr ⟨64, rfl, rfl, rfl, rfl, fun _ _ => rfl⟩, rfl⟩, Or.inr ⟨64, rfl, rfl, rfl, rfl, fun _ _ => rfl⟩, fun _ => Or.inl ⟨rfl, rfl⟩⟩
/-- 512 reads are outstanding at a port; a head within the ring. -/
theorem test_meets_PortAndQueuePairResults_asked :
    (let s := hosted .bound { qps := [(255, qpair [] [])], reads := (List.range 512).map (fun i => (i, ⟨pkt .readReq (.host .a), 0⟩)) }
     512 ≤ (portOf s .a).reads.length + (portOf s .a).flushes.length ∧ getPair s .a 255 = some (qpair [] [])) ∧
    (qpair [] []).sqHead < 2 ^ (qpair [] []).sqLog2 := by decide +kernel
/-- A field in which every block has its clock, and one with a stopped block. -/
def stoppedBlock : State := { idle with blocks := [(16 * 48, { stopped := true })] }
theorem test_meets_PartitionWriteResults_clocks : ClocksRun idle 48 ∧ fieldWhole stoppedBlock 48 = true ∧
    isHole stoppedBlock ⟨96, 96⟩ = false ∧ (getBlock stoppedBlock (siteOf stoppedBlock ⟨96, 96⟩).block).stopped = true ∧
    (getPart (hosted .idle {}) 0).change = none :=
  ⟨⟨rfl, rfl, rfl, fun _ _ => rfl⟩, by decide, by decide, by decide, rfl⟩
theorem test_meets_PartitionWriteResults_zeroed : fieldZeroed idle 48 = true := by decide +kernel
theorem test_meets_PartitionWriteResults_tile : (⟨96, 96⟩ : XY) ∈ fieldTiles 48 := by decide
theorem test_meets_BootResults_channels : (List.range 224).all (fun ch => !(chanShut idle ch)) = true := by decide +kernel
theorem test_meets_PortMemoryWriteResults_done : (∀ x ∈ (qpair [] [⟨1, 0, 0, true⟩]).done, x.launch = true) ∧
    (∃ x ∈ (qpair [] [⟨1, 0, 0, false⟩]).done, x.launch = false) := by decide
/-- The last block of an image reaches the dictionary by MCTP and from the management node. -/
theorem test_meets_SecurityResults_image :
    ∀ ep ∈ [Endpoint.mctp .a 8, .udp (0xFE80 * 2 ^ 112 + 1) 0xCE5A],
      (let s := hosted .idle {}
       let h : Req := ⟨ep, 4, 1, 0x8012, 0, 0, 0, 4096, 0, true, {}⟩
       reaches s h (zeros 4096) = true ∧ discards h (zeros 4096) = false ∧ retryOf s h (zeros 4096) = none ∧
         (match judge s ep 0x8012 0 true (.write (zeros 4096)) with
           | .ok _ => true
           | .error _ => false) = true) := by decide +kernel
theorem test_meets_MailboxAndAttestationResults_packets : mctpWhole ⟨.a, 31, none⟩ = true ∧
    mctpWhole ⟨.a, 0, some [⟨true, false, 0, 64⟩, ⟨false, true, 1, 8⟩]⟩ = true ∧
    mctpWhole ⟨.a, 0, some [⟨true, false, 0, 64⟩, ⟨false, true, 2, 8⟩]⟩ = false := by decide
theorem test_meets_ApertureAndPortResults_clock : tclkRuns idle = true ∧
    Brings (xstate (xconn .opened)) apPkt apPkt.payload ∧ (⟨false, 1000000, 0⟩ : PtpEvent).offsetNs ≤ 1000000 :=
  ⟨rfl, Or.inl ⟨rfl, rfl⟩, by decide⟩
/-- A bit whose other name still waits, and one without. -/
theorem test_meets_ControllerResults_names :
    (∃ g ∈ [evParity, evLane].erase evParity, eventBit g = evParity) ∧ (∀ g ∈ [evParity].erase evParity, eventBit g ≠ evParity) ∧
    ({ idle with boot := { master := some 24, st := .ready } } : State).boot.master = some 24 := by decide
theorem test_meets_ResetEndResults_hung :
    (let s : State := { hosted .bound {} with fields := [(0, { locked with hung := true })] }
     ∃ f ∈ (getPart s 0).fields, fieldAlive s f = true ∧ (getField s f).hung = true) ∧
    (∀ f ∈ (getPart (hosted .bound {}) 0).fields, fieldAlive (hosted .bound {}) f = true → (getField (hosted .bound {}) f).hung = false) := by
  decide

end Sys2Proof.Tests
end

section
/-!
PROOFS. Seam lanes, forwarded events, heartbeats and failover (R20 to R22, R445, R451 to R455). First what the shared operations leave
as they were: a response, a vector, the end of host commands, a context reset, a capture and a device-wide reset keep the fields, the
seams, the clocks, the latched classes and what waits at the tiles to be forwarded. Then the result of each command.
-/
namespace Sys2Proof.Machine

/-! ### Lists of operations -/

theorem forAll_eq_foldl {α : Type} (f : State → α → State) (l : List α) (s : State) : forAll f l s = l.foldl f s := by
  induction l generalizing s with
  | nil => rfl
  | cons a r ih => exact ih (f s a)

/-- What each operation leaves as it was, the operations on a list leave as it was. -/
theorem foldl_keeps {α σ β : Type} (p : σ → β) {f : σ → α → σ} (h : ∀ x a, p (f x a) = p x) (l : List α) (x : σ) :
    p (l.foldl f x) = p x := by
  induction l generalizing x with
  | nil => rfl
  | cons a r ih => exact (ih (f x a)).trans (h x a)

theorem forAll_keeps {α β : Type} (p : State → β) {f : State → α → State} (h : ∀ s a, p (f s a) = p s) (l : List α)
    (s : State) : p (forAll f l s) = p s := by
  rw [forAll_eq_foldl]
  exact foldl_keeps p h l s

/-! ### What stands -/

/-- The TC_EVENT of every tile and what waits there to be forwarded are as before. -/
def SameWaiting (s u : State) : Prop :=
  mrising s.tiles = true → mrising u.tiles = true ∧
    ∀ t, (getTile u t).event = (getTile s t).event ∧ (getTile u t).raised = (getTile s t).raised

/-- The fields, the seams, the clocks and what waits at the tiles are as before. -/
structure Kept (s u : State) : Prop where
  fields : u.fields = s.fields
  bundles : u.bundles = s.bundles
  clk : u.clk = s.clk
  waiting : SameWaiting s u

/-- So are the latched classes and the state of the boot, with the device-wide reset in it: all that happens is logged. -/
structure Logged (s u : State) : Prop extends Kept s u where
  latched : u.events.latched = s.events.latched
  boot : u.boot = s.boot

/-- Nothing is logged either. -/
structure Untouched (s u : State) : Prop extends Logged s u where
  events : u.events = s.events

theorem SameWaiting.of_tiles {s u : State} (h : u.tiles = s.tiles) : SameWaiting s u := fun hs =>
  ⟨h ▸ hs, fun t => by simp only [getTile, h, and_self]⟩

theorem SameWaiting.trans {s u v : State} (h : SameWaiting s u) (h' : SameWaiting u v) : SameWaiting s v := fun hs =>
  ⟨(h' (h hs).1).1, fun t => ⟨((h' (h hs).1).2 t).1.trans ((h hs).2 t).1, ((h' (h hs).1).2 t).2.trans ((h hs).2 t).2⟩⟩

theorem Kept.of_eq {s u : State} (hf : u.fields = s.fields) (hb : u.bundles = s.bundles) (hc : u.clk = s.clk)
    (ht : u.tiles = s.tiles) : Kept s u :=
  ⟨hf, hb, hc, .of_tiles ht⟩

theorem Kept.refl (s : State) : Kept s s := .of_eq rfl rfl rfl rfl

theorem Kept.trans {s u v : State} (h : Kept s u) (h' : Kept u v) : Kept s v :=
  ⟨h'.fields.trans h.fields, h'.bundles.trans h.bundles, h'.clk.trans h.clk, h.waiting.trans h'.waiting⟩

theorem Logged.of_eq {s u : State} (hf : u.fields = s.fields) (hb : u.bundles = s.bundles) (hc : u.clk = s.clk)
    (ht : u.tiles = s.tiles) (hl : u.events.latched = s.events.latched) (ho : u.boot = s.boot) : Logged s u :=
  ⟨.of_eq hf hb hc ht, hl, ho⟩

theorem Logged.trans {s u v : State} (h : Logged s u) (h' : Logged u v) : Logged s v :=
  ⟨h.toKept.trans h'.toKept, h'.latched.trans h.latched, h'.boot.trans h.boot⟩

namespace Untouched

/-- An operation on other parts of the state. -/
theorem of_eq {s u : State} (hf : u.fields = s.fields) (hb : u.bundles = s.bundles) (hc : u.clk = s.clk)
    (ht : u.tiles = s.tiles) (he : u.events = s.events) (ho : u.boot = s.boot) : Untouched s u :=
  ⟨.of_eq hf hb hc ht (he ▸ rfl) ho, he⟩

theorem refl (s : State) : Untouched s s := of_eq rfl rfl rfl rfl rfl rfl

theorem trans {s u v : State} (h : Untouched s u) (h' : Untouched u v) : Untouched s v :=
  ⟨h.toLogged.trans h'.toLogged, h'.events.trans h.events⟩

theorem forAll {α : Type} {f : State → α → State} (h : ∀ s a, Untouched s (f s a)) (l : List α) (s : State) :
    Untouched s (forAll f l s) := by
  induction l generalizing s with
  | nil => exact refl s
  | cons a r ih => exact (h s a).trans (ih (f s a))

theorem setPort (s : State) (p : HPort) (v : Port_) : Untouched s (setPort s p v) := by
  cases p <;> exact of_eq rfl rfl rfl rfl rfl rfl

theorem modPort (s : State) (p : HPort) (g : Port_ → Port_) : Untouched s (modPort s p g) := setPort s p _

theorem setPart (s : State) (p : Nat) (v : Part) : Untouched s (setPart s p v) := of_eq rfl rfl rfl rfl rfl rfl

theorem modPart (s : State) (p : Nat) (g : Part → Part) : Untouched s (modPart s p g) := setPart s p _

theorem addTotal (s : State) (ix sub n : Nat) : Untouched s (addTotal s ix sub n) := of_eq rfl rfl rfl rfl rfl rfl

theorem emit (s : State) (o : Output) : Untouched s (emit s o) := of_eq rfl rfl rfl rfl rfl rfl

theorem modConn (s : State) (c : Nat) (g : Conn → Conn) : Untouched s (modConn s c g) := of_eq rfl rfl rfl rfl rfl rfl

/-- A change of a tile that leaves its events alone. -/
theorem modTile (s : State) (u : XY) {g : Tile → Tile} (he : ∀ T, (g T).event = T.event) (hr : ∀ T, (g T).raised = T.raised) :
    Untouched s (modTile s u g) := by
  refine ⟨⟨⟨rfl, rfl, rfl, fun hs => ⟨?_, fun t => ?_⟩⟩, rfl, rfl⟩, rfl⟩
  · unfold Machine.modTile setTile mset
    split
    · exact mrising_mdel hs _
    · exact mrising_mput hs _ _
  · by_cases hk : t.key = u.key
    · have hself : getTile (Machine.modTile s u g) t = g (getTile s t) := by
        simp only [getTile, Machine.modTile, setTile, hk]
        exact mget_mset_self _ hs _ _
      exact hself ▸ ⟨he _, hr _⟩
    · have hne : getTile (Machine.modTile s u g) t = getTile s t := getTile_setTile_ne s _ hk
      exact hne ▸ ⟨rfl, rfl⟩

/-! ### Vectors, and the raising of an event -/

theorem fireVector (s : State) (f : Fn) (v : Nat) : Untouched s (fireVector s f v) := by
  unfold Machine.fireVector
  split
  · exact modPort s _ _
  · exact emit s _

theorem vectorAll (s : State) (p : HPort) (v : Nat) : Untouched s (vectorAll s p v) := by
  unfold Machine.vectorAll
  split
  · exact forAll (fun s n => fireVector s _ v) _ s
  · exact refl s

theorem vectorIf (s : State) (c : Bool) (p : HPort) (v : Nat) : Untouched s (if c = true then Machine.vectorAll s p v else s) := by
  split
  · exact vectorAll s p v
  · exact refl s

end Untouched

theorem logEvent_logged (s : State) (e : Event) (place : Nat) : Logged s (logEvent s e place) := by
  unfold logEvent
  extract_lets v e' v' u w
  have hu : Logged s u := .of_eq rfl rfl rfl rfl rfl rfl
  exact hu.trans ((Untouched.vectorIf u _ .a 3).trans (Untouched.vectorIf w _ .b 3)).toLogged

/-- The state with one more class latched (R444). -/
def latch (s : State) (cls : Nat) : State := { s with events := { s.events with latched := s.events.latched ||| (1#64 <<< cls) } }

/-- The raising of an event latches its class; the rest is its record, its vectors and a pin. -/
theorem raise_logged (s : State) (e : Event) (place : Nat) : Logged (latch s e.cls) (raise s e place) := by
  have hpin (u : State) (c : Bool) : Logged u (if c = true then { u with pins := { u.pins with alertN := false } } else u) := by
    split <;> exact .of_eq rfl rfl rfl rfl rfl rfl
  unfold raise
  extract_lets m v u p w
  have hw : Logged (latch s e.cls) w := hpin u _
  split
  · exact hw.trans (.of_eq rfl rfl rfl rfl rfl rfl)
  · exact hw.trans (logEvent_logged w e place)

theorem raise_kept (s : State) (e : Event) (place : Nat) : Kept s (raise s e place) :=
  (Kept.of_eq (s := s) (u := latch s e.cls) rfl rfl rfl rfl).trans (raise_logged s e place).toKept

theorem raise_boot (s : State) (e : Event) (place : Nat) : (raise s e place).boot = s.boot := (raise_logged s e place).boot

theorem raise_latched (s : State) (e : Event) (place : Nat) {c : Nat} (h : e.cls = c) (hc : c < 64) :
    (raise s e place).events.latched.getLsbD c = true := by
  subst h
  simp [(raise_logged s e place).latched, latch, hc]

theorem Event.atField_cls (s : State) (f : Nat) (e : Event) : (e.atField s f).cls = e.cls := by
  unfold Event.atField
  dsimp only
  split <;> rfl

theorem Event.atTile_cls (s : State) (t : XY) (e : Event) : (e.atTile s t).cls = e.cls := Event.atField_cls s _ e

/-! ### Responses, host commands and connections -/

namespace Untouched

theorem countRoute (s : State) (r : Route) : Untouched s (countRoute s r) := by
  cases r with
  | unreachable => exact addTotal s _ _ _
  | detour m => exact addTotal s _ _ _
  | direct => exact refl s
  | valiant m => exact refl s

theorem addPkt (s : State) (k : Pkt) : Untouched s (addPkt s k) := by
  unfold Machine.addPkt
  split
  · exact refl s
  · exact of_eq rfl rfl rfl rfl rfl rfl

theorem inject (s : State) (k : Pkt) (mid : Option XY) : Untouched s (inject s k mid).1 := by
  unfold Machine.inject
  extract_lets r u
  split
  · exact countRoute s r
  · exact (countRoute s r).trans (addPkt u _)

theorem injectTile (s : State) (k : Pkt) : Untouched s (injectTile s k).1 := by
  unfold Machine.injectTile
  extract_lets x
  split
  · exact (inject s k none).trans
      (modTile _ k.src (g := fun T => T.addAct 5 (flitsOf k.payload.length)) (fun _ => rfl) (fun _ => rfl))
  · exact inject s k none

theorem respond (s : State) (req : Pkt) (ty : PktType) (st : Byte) (l : List Byte) (poison : Bool) :
    Untouched s (respond s req ty st l poison) := by
  unfold Machine.respond respondWith
  extract_lets k
  split
  · exact injectTile s k
  · exact inject s k none

theorem addPortCount (s : State) (p : HPort) (i n : Nat) : Untouched s (addPortCount s p i n) := modPort s p _

theorem completeCmd (s : State) (port : HPort) (qp id : Nat) (st : Byte) (res : Word64) :
    Untouched s (completeCmd s port qp id st res) := by
  unfold Machine.completeCmd
  split
  · exact refl s
  · split
    · exact refl s
    · extract_lets u q' v w
      have hu : Untouched s u := of_eq rfl rfl rfl rfl rfl rfl
      have hw : Untouched s w := hu.trans ((modPort u port _).trans (addPortCount v port 0 1))
      split
      · exact hw
      · exact hw.trans (addPortCount w port 1 1)

theorem failPair (s : State) (port : HPort) (qp : Nat) (f : HostCmd → Bool) : Untouched s (failPair s port qp f) := by
  unfold Machine.failPair
  split
  · exact refl s
  · exact forAll (fun s (c : HostCmd) => completeCmd s port qp c.id stNotReady 0) _ s

theorem failCmdsOn (s : State) (port : HPort) (f : HostCmd → Bool) : Untouched s (failCmdsOn s port f) :=
  forAll (fun s (e : Nat × QPair) => failPair s port e.1 f) _ s

theorem failCmds (s : State) (f : HostCmd → Bool) : Untouched s (failCmds s f) := (failCmdsOn s .a f).trans (failCmdsOn _ .b f)

theorem failCmds_withDram (s : State) (d : Dram) (f : HostCmd → Bool) : Untouched s (Machine.failCmds { s with dram := d } f) :=
  (of_eq (s := s) (u := { s with dram := d }) rfl rfl rfl rfl rfl rfl).trans (failCmds _ f)

theorem failRequests (s : State) (c : Nat) : Untouched s (failRequests s c) :=
  (modConn s c _).trans (forAll (fun s (e : Nat × Pkt) => respond s e.2 .error stNotReady [] false) _ _)

theorem restartingConn (s : State) (c : Nat) : Untouched s (restartingConn s c) := by
  unfold Machine.restartingConn
  exact (failRequests s c).trans (modConn _ c _)

theorem restartConns (s : State) (f : Conn → Bool) : Untouched s (restartConns s f) := by
  refine forAll (fun s e => ?_) s.xdt.conns s
  split
  · exact restartingConn s e.1
  · exact refl s

/-! ### A context reset -/

theorem abandonReads (s : State) (p : Nat) : Untouched s (abandonReads s p) := by
  unfold Machine.abandonReads
  exact (modPort s .a _).trans (modPort _ .b _)

theorem flushContext (s : State) (c : Nat) : Untouched s (flushContext s c) := of_eq rfl rfl rfl rfl rfl rfl

theorem beginContextReset (s : State) (p : Nat) (rollback unbind : Bool) : Untouched s (beginContextReset s p rollback unbind) := by
  unfold Machine.beginContextReset
  extract_lets P u v
  split
  · exact refl s
  · split
    · exact setPart s p _
    · have hv : Untouched s v := (setPart s p _).trans ((abandonReads u p).trans (restartConns _ _))
      split
      · exact hv
      · exact hv.trans (of_eq rfl rfl rfl rfl rfl rfl)

/-! ### A device-wide reset -/

theorem emptyMesh (s : State) : Untouched s (emptyMesh s) := by
  unfold Machine.emptyMesh
  extract_lets f u
  have hf (s : State) (p : HPort) : Untouched s (f s p) := (setPort s p _).trans (forAll (fun s e => emit s _) _ _)
  exact ((hf s .a).trans (hf _ .b)).trans (of_eq rfl rfl rfl rfl rfl rfl)

theorem linkDown (s : State) (p : HPort) : Untouched s (linkDown s p) := by
  unfold Machine.linkDown
  split
  · exact (modPort s p _).trans (addPortCount _ p 7 1)
  · exact refl s

theorem resetPort (s : State) (p : HPort) : Untouched s (resetPort s p) := by
  unfold Machine.resetPort
  extract_lets P u v w gone
  have hw : Untouched s w := ((setPort s p _).trans (of_eq (u := v) rfl rfl rfl rfl rfl rfl)).trans
    (forAll (fun s (e : Nat × HostRead) => respond s e.2.req .error stNotReady [] false) _ _)
  exact hw.trans (of_eq rfl rfl rfl rfl rfl rfl)

end Untouched

/-- A capture changes no more of the boot's state than the owners that it notes. -/
theorem carmine_untouched (s : State) (kind : Nat) :
    ∃ own, Untouched { s with boot := { s.boot with captured := own } } (carmine s kind) := by
  unfold carmine
  exact ⟨_, .of_eq rfl rfl rfl rfl rfl rfl⟩

theorem Untouched.withBoot {s u : State} (h : Untouched s u) (b : Boot) : Untouched { s with boot := b } { u with boot := b } :=
  ⟨⟨⟨h.fields, h.bundles, h.clk, h.waiting⟩, h.latched, rfl⟩, h.events⟩

theorem Untouched.kept_of_boot {s u : State} {b : Boot} (h : Untouched { s with boot := b } u) : Kept s u :=
  ⟨h.fields, h.bundles, h.clk, h.waiting⟩

/-- A full reset, once decided, changes the boot's state and nothing that waits or is logged; the boot master stands (R458). -/
theorem decideFull_cases (s : State) :
    ∃ b : Boot, Untouched { s with boot := b } (decideFull s) ∧ b.master = s.boot.master ∧
      (s.boot.st ≠ .booting → s.boot.st ≠ .failed → b.resetting = some .full) := by
  unfold decideFull
  split
  case isTrue h => exact ⟨s.boot, .refl s, rfl, fun hb hf => by simpa [hb, hf] using h⟩
  case isFalse =>
    extract_lets u b v w x y
    have hu : ∃ own, Untouched { s with boot := { s.boot with captured := own } } u := by
      unfold u
      split
      · exact ⟨s.boot.captured, .refl s⟩
      · exact carmine_untouched s 3
    obtain ⟨own, hu⟩ := hu
    have hy : Untouched v y :=
      (((Untouched.emptyMesh v).trans ((Untouched.linkDown w .a).trans (.resetPort _ .a))).trans (.linkDown x .b)).trans
        (.resetPort _ .b)
    have hm : u.boot.master = s.boot.master := (congrArg Boot.master hu.boot :)
    clear_value y
    refine ⟨v.boot, (hu.withBoot v.boot).trans (hy.trans ?_), hm, fun _ _ => rfl⟩
    exact .of_eq rfl rfl rfl rfl rfl rfl

/-- A compute reset that begins notes its time and changes no more than the boot's state of what is logged and waits (R455, R461). -/
theorem beginCompute_cases (s : State) :
    ∃ b : Boot, Untouched { s with boot := b } (beginCompute s) ∧ b.master = s.boot.master ∧
      (s.boot.resetting = none → s.boot.st = .ready →
        b.resetting = some .compute ∧ b.st = .computeReset ∧ b.computeAt = s.clk.gtc :: s.boot.computeAt) := by
  unfold beginCompute
  split
  case isTrue h => exact ⟨s.boot, .refl s, rfl, fun hr hs => by simp [hr, hs] at h⟩
  case isFalse =>
    extract_lets b u v w
    obtain ⟨own, hu⟩ := carmine_untouched u 2
    have hv : Untouched (carmine u 2) w :=
      (Untouched.emptyMesh (carmine u 2)).trans ((Untouched.modPort v .a voidDone).trans (.modPort _ .b voidDone))
    refine ⟨{ u.boot with captured := own }, (hu.trans hv).trans (.failCmds_withDram w _ _), rfl, fun _ _ => ⟨rfl, rfl, rfl⟩⟩

/-- The only compute reset that is noted is not the fourth within 10 minutes. -/
theorem fourthCompute_first {s : State} {g : Nat} (h : s.boot.computeAt = [g]) : fourthCompute s = false := by
  have hl := List.length_filter_le (fun g => decide (s.clk.gtc < g + 600000000000)) s.boot.computeAt
  rw [h, List.length_singleton] at hl
  simp only [fourthCompute, h, decide_eq_false_iff_not]
  omega

/-- A compute reset that is decided where none is in progress is in progress then, or is a full reset: never at the first (R461). -/
theorem decideCompute_cases (s : State) :
    ∃ b : Boot, Untouched { s with boot := b } (decideCompute s) ∧ b.master = s.boot.master ∧
      (s.boot.resetting = none → s.boot.st = .ready →
        b.resetting ≠ none ∧ (s.boot.computeAt = [] → b.resetting = some .compute)) := by
  unfold decideCompute
  split
  case isTrue h => exact ⟨s.boot, .refl s, rfl, fun hr _ => by simp [hr] at h⟩
  case isFalse =>
    extract_lets u
    obtain ⟨b, hu, hm, hb⟩ := beginCompute_cases s
    split
    case isFalse => exact ⟨b, hu, hm, fun hr hs => ⟨by simp [(hb hr hs).1], fun _ => (hb hr hs).1⟩⟩
    case isTrue h4 =>
      obtain ⟨c, hc, hcm, hcr⟩ := decideFull_cases u
      refine ⟨c, (hu.withBoot c).trans hc, hcm.trans ((congrArg Boot.master hu.boot).trans hm), fun hr hs => ?_⟩
      obtain ⟨-, hst, hat⟩ := hb hr hs
      have hub : u.boot = b := hu.boot
      refine ⟨by simp [hcr, hub, hst], fun h0 => ?_⟩
      have := fourthCompute_first (s := u) (by rw [hub, hat, h0])
      simp [this] at h4

theorem decideCompute_fields (s : State) : (decideCompute s).fields = s.fields := by
  obtain ⟨b, hb, -⟩ := decideCompute_cases s
  exact hb.fields

/-! ### The forwarding of an event (R445) -/

theorem eventBit_raisedAs (T : Tile) {bit : Nat} (h : bit < 14) : eventBit (T.raisedAs bit) = bit := by
  unfold Tile.raisedAs
  split
  case isTrue hb =>
    subst hb
    cases hf : T.raised.find? (fun h => decide (h = evParity) || isAlias h) with
    | none => rfl
    | some g =>
      have hg := List.find?_some hf
      simp only [Bool.or_eq_true, decide_eq_true_eq] at hg
      rcases hg with rfl | hg
      · rfl
      · exact if_pos hg
  case isFalse =>
    refine if_neg ?_
    simp only [isAlias, Bool.or_eq_true, decide_eq_true_eq]
    unfold evLane evMigrate
    omega

/-- The bit is cleared where no name of it waits any more. -/
theorem forwarded_event_cleared {T : Tile} {h : Nat} (hn : ∀ g ∈ T.raised.erase h, eventBit g ≠ eventBit h) :
    (T.forwarded h).event.getLsbD (eventBit h) = false := by
  have : (T.raised.erase h).any (fun x => decide (eventBit x = eventBit h)) = false := by simpa using hn
  simp [Tile.forwarded, this]

/-- It stands where another name of it waits. -/
theorem forwarded_event_stands {T : Tile} {h : Nat} (hn : ∃ g ∈ T.raised.erase h, eventBit g = eventBit h) :
    (T.forwarded h).event = T.event := by
  have : (T.raised.erase h).any (fun x => decide (eventBit x = eventBit h)) = true := by simpa using hn
  simp [Tile.forwarded, this]

theorem eventClass_lt {s : State} {t : XY} {h c sv me ac : Nat} (he : eventClass s t h = some (c, sv, me, ac)) : c < 64 := by
  unfold eventClass at he
  split at he <;> simp only [Option.some.injEq, Prod.mk.injEq, reduceCtorEq] at he
  all_goals
    obtain ⟨rfl, -⟩ := he
    decide

theorem Untouched.nameCause (s : State) (t : XY) : Untouched s (nameCause s t) := by
  unfold Machine.nameCause
  split
  · exact refl s
  · exact modPart s _ _

theorem Untouched.afterRaise (s : State) (t : XY) (c : Nat) : Untouched s (afterRaise s t c) := by
  unfold Machine.afterRaise
  split
  · exact nameCause s t
  · split
    · split
      · exact refl s
      · exact beginContextReset s _ true false
    · exact refl s

/-- A send stall is recorded in the partition and raised (R266). -/
theorem recordStall_spec (s : State) (t : XY) (T : Tile) :
    Kept s (recordStall s t T) ∧ (recordStall s t T).boot = s.boot ∧
      (recordStall s t T).events.latched.getLsbD clSendStall = true := by
  unfold recordStall
  extract_lets u v
  have hv : Untouched s v := by
    refine (Untouched.addTotal s 0x2800 3 1).trans ?_
    unfold v
    split
    · exact .refl u
    · exact .modPart u _ _
  exact ⟨hv.toKept.trans (raise_kept v _ _), (raise_boot v _ _).trans hv.boot,
    raise_latched v _ _ (Event.atTile_cls v t _) (by decide)⟩

theorem recordDeviation_spec (s : State) (t : XY) (T : Tile) :
    Kept s (recordDeviation s t T) ∧ (recordDeviation s t T).boot = s.boot := by
  unfold recordDeviation
  split
  · extract_lets u v w
    have hv : Untouched s v := by
      refine (Untouched.addTotal s 0x2400 2 1).trans ?_
      unfold v
      split
      · exact .refl u
      · exact .modPart u _ _
    have hw : Kept s w := hv.toKept.trans (raise_kept v _ _)
    have hb : w.boot = s.boot := (raise_boot v _ _).trans hv.boot
    clear_value w
    exact ⟨hw.trans (.of_eq rfl rfl rfl rfl), hb⟩
  · exact ⟨.refl s, rfl⟩

theorem raiseEvent_of_not_mem {s : State} {t : XY} {bit : Nat} (h : (getTile s t).raisedAs bit ∉ (getTile s t).raised) :
    raiseEvent s t bit = (s, false) := if_neg (by simpa using h)

/-- An event that waits is taken from its tile and its class is raised; it is true for an uncorrectable word. -/
theorem raiseEvent_of_mem {s : State} {t : XY} {bit h : Nat} (hh : (getTile s t).raisedAs bit = h) (hm : h ∈ (getTile s t).raised) :
    ∃ u, raiseEvent s t bit = (u, decide (h = evEccUe)) ∧ Kept (setTile s t ((getTile s t).forwarded h)) u ∧ u.boot = s.boot ∧
      (h = evSendStall → u.events.latched.getLsbD clSendStall = true) ∧
      (∀ c sv me ac, eventClass s t h = some (c, sv, me, ac) → u.events.latched.getLsbD c = true) := by
  unfold raiseEvent
  simp only [hh, List.contains_eq_mem, decide_eq_true hm, if_true]
  generalize hw : setTile s t ((getTile s t).forwarded h) = w
  have hwb : w.boot = s.boot := hw ▸ rfl
  have hwc : eventClass w t h = eventClass s t h := hw ▸ rfl
  by_cases h1 : h = evSendStall
  · obtain ⟨hk, hb, hl⟩ := recordStall_spec w t (getTile s t)
    subst h1
    exact ⟨_, rfl, hk, hb.trans hwb, fun _ => hl, fun _ _ _ _ he => by cases he⟩
  rw [if_neg h1]
  by_cases h2 : h = evBalStall
  · obtain ⟨hk, hb⟩ := recordDeviation_spec w t (getTile s t)
    subst h2
    exact ⟨_, rfl, hk, hb.trans hwb, fun h => absurd h h1, fun _ _ _ _ he => by cases he⟩
  rw [if_neg h2, hwc]
  cases he : eventClass s t h with
  | none =>
    have h3 : h ≠ evEccUe := fun h3 => by subst h3; cases he
    exact ⟨w, by simp [h3], .refl w, hwb, fun h => absurd h h1, fun _ _ _ _ he => by cases he⟩
  | some x =>
    obtain ⟨c, sv, me, ac⟩ := x
    dsimp only
    generalize hr : raise w _ _ = v
    have hv : Kept w v ∧ v.boot = w.boot ∧ v.events.latched.getLsbD c = true :=
      hr ▸ ⟨raise_kept w _ _, raise_boot w _ _, raise_latched w _ _ (Event.atTile_cls w t _) (eventClass_lt he)⟩
    obtain ⟨hk, hb, hl⟩ := hv
    have ha := Untouched.afterRaise v t c
    refine ⟨_, rfl, hk.trans ha.toKept, ha.boot.trans (hb.trans hwb), fun h => absurd h h1, fun c' sv' me' ac' heq => ?_⟩
    cases heq
    rw [ha.events, hl]

/-! ### Seam lanes (R20 to R22) -/

theorem loseLane_bad (v : Bundle) (l : Nat) : (v.loseLane l).bad = v.bad + 1 := by
  unfold Bundle.loseLane
  extract_lets hem moved w
  have hhem (v : Bundle) (l : Nat) : (hem v l).bad = v.bad := by
    unfold hem
    split
    · rfl
    · split <;> rfl
  have hmoved (h : Hem) (v : Bundle) : (moved h v).bad = v.bad := by
    cases h with
    | unused => rfl
    | carries m => exact hhem v m
    | bad => rfl
  split
  · exact hmoved _ _
  · split
    · exact hmoved _ _
    · exact hhem w l

theorem raiseLane_kept (b : Nat) (s : State) (n : Nat) : Kept s (raiseLane b s n) := raise_kept s _ b

theorem raiseLane_latched (b : Nat) (s : State) (n : Nat) : (raiseLane b s n).events.latched.getLsbD clSeamLane = true :=
  raise_latched s _ b (Event.atField_cls s _ _) (by decide)

/-- The bundle after a comparison of the lane that its Hem lane copies. -/
def comparedBundle (v : Bundle) (disagree : Bool) : Bundle :=
  { (if disagree then v.loseLane v.lane else v) with
    lane := (v.lane + 1) % 32, exhausted := v.exhausted || decide (2 ≤ if disagree then v.bad + 1 else v.bad) }

theorem comparedBundle_bad (v : Bundle) (d : Bool) : (comparedBundle v d).bad = v.bad + (if d then 1 else 0) := by
  cases d
  · rfl
  · exact loseLane_bad v v.lane

theorem exec_laneCompareStep_compares {s : State} {n : Nat} (d : Bool) (hn : n < 1386 * 92) (ht : tclkRuns s = true)
    (h1 : fieldAlive s (bundleFields n).1 = true) (h2 : fieldAlive s (bundleFields n).2 = true)
    (hb : (mget {} s.bundles n).bad < 2) :
    exec (.laneCompareStep n d) s = .next (
      let u := { s with bundles := mset {} s.bundles n (comparedBundle (mget {} s.bundles n) d) }
      if d then raiseLane n u (mget {} s.bundles n).lane else u) := by
  rw [exec_laneCompareStep, execLaneCompareStep]
  simp only [hn, ht, h1, h2, hb, decide_true, Bool.and_self, if_true]
  rfl

/-- A disagreement replaces the lane compared and is logged; the next lane is copied after it (R20). -/
theorem laneCompareStep_results {s : State} {n : Nat} (d : Bool) (hn : n < 1386 * 92) (ht : tclkRuns s = true)
    (h1 : fieldAlive s (bundleFields n).1 = true) (h2 : fieldAlive s (bundleFields n).2 = true)
    (hb : (mget {} s.bundles n).bad < 2) (hr : mrising s.bundles = true) :
    ∃ s', exec (.laneCompareStep n d) s = .next s' ∧
      mget {} s'.bundles n = comparedBundle (mget {} s.bundles n) d ∧
      (d = true → s'.events.latched.getLsbD clSeamLane = true) ∧ (d = false → s'.events = s.events) := by
  refine ⟨_, exec_laneCompareStep_compares d hn ht h1 h2 hb, ?_⟩
  have hself := mget_mset_self ({} : Bundle) hr n (comparedBundle (mget {} s.bundles n) d)
  cases d with
  | false => exact ⟨hself, nofun, fun _ => rfl⟩
  | true =>
    refine ⟨?_, fun _ => raiseLane_latched _ _ _, nofun⟩
    simp only [if_true, (raiseLane_kept _ _ _).bundles, hself]

/-! ### Events of a tile -/

theorem exec_eventForward_forwards {s : State} {t : XY} {bit : Nat} (hp : s.power.on = true) (ht : tileLive s t = true)
    (hh : (getField s t.field).hung = false) (hb : bit < 14) : exec (.eventForward t bit) s = .next (forwardEvent s t bit) := by
  rw [exec_eventForward, execEventForward]
  simp only [hp, ht, hh, hb, decide_true, Bool.not_false, Bool.and_self, if_true]

theorem forwardEvent_of_not_mem {s : State} {t : XY} {bit : Nat} (h : (getTile s t).raisedAs bit ∉ (getTile s t).raised) :
    forwardEvent s t bit = s := by
  simp [forwardEvent, raiseEvent_of_not_mem h]

/-- What a tile's event that waits leaves when it is forwarded: its tile as forwarded, its class latched, and of an uncorrectable word a
device-wide reset (R445, R455). -/
theorem forwardEvent_of_mem {s : State} {t : XY} {bit h : Nat} (hok : s.ok = true) (hr : s.boot.resetting = none)
    (hs : s.boot.st = .ready) (hh : (getTile s t).raisedAs bit = h) (hm : h ∈ (getTile s t).raised) :
    (getTile (forwardEvent s t bit) t).event = ((getTile s t).forwarded h).event ∧
      (getTile (forwardEvent s t bit) t).raised = ((getTile s t).forwarded h).raised ∧
      (h = evSendStall → (forwardEvent s t bit).events.latched.getLsbD clSendStall = true) ∧
      (∀ c sv me ac, eventClass s t h = some (c, sv, me, ac) → (forwardEvent s t bit).events.latched.getLsbD c = true) ∧
      (h = evEccUe → (forwardEvent s t bit).boot.resetting ≠ none) := by
  obtain ⟨u, hu, hk, hb, hstall, hcls⟩ := raiseEvent_of_mem hh hm
  have hfwd : forwardEvent s t bit = if h = evEccUe then decideCompute u else u := by simp [forwardEvent, hu]
  have hv : ∃ v, forwardEvent s t bit = v ∧ Kept u v ∧ v.events = u.events ∧ (h = evEccUe → v.boot.resetting ≠ none) := by
    refine ⟨_, hfwd, ?_⟩
    split
    case isFalse hne => exact ⟨.refl u, rfl, fun h => absurd h hne⟩
    case isTrue =>
      obtain ⟨b, hd, -, hdr⟩ := decideCompute_cases u
      have hres := (hdr (hb ▸ hr) (hb ▸ hs)).1
      exact ⟨hd.kept_of_boot, hd.events, fun _ => hd.boot ▸ hres⟩
  obtain ⟨v, rfl, hkv, hev, hres⟩ := hv
  have hrise : mrising (setTile s t ((getTile s t).forwarded h)).tiles = true := mwf_rising (mwf_mset (ok_tiles hok) _ _)
  obtain ⟨he, hra⟩ := ((hk.trans hkv).waiting hrise).2 t
  rw [getTile_setTile_self hok] at he hra
  exact ⟨he, hra, fun h => hev ▸ hstall h, fun c sv me ac h => hev ▸ hcls c sv me ac h, hres⟩

/-! ### Heartbeats (R451) -/

/-- A field after a heartbeat interval: where it is alive and its controller does not hang, the missed heartbeats are counted. -/
def heardField (heard : List Nat) (alive : Bool) (f : Nat) (D : Field) : Field :=
  if alive && !D.hung then { D with missed := if heard.contains f then 0 else D.missed + 1 } else D

/-- The heartbeat interval at one field controller. -/
def hearField (heard : List Nat) (s : State) (f : Nat) : State :=
  if fieldAlive s f && !(getField s f).hung then
    modField s f (fun D => { D with missed := if heard.contains f then 0 else D.missed + 1 })
  else s

theorem mrising_setField {s : State} (h : mrising s.fields = true) (f : Nat) (v : Field) : mrising (setField s f v).fields = true := by
  simp only [setField, mset]
  split
  · exact mrising_mdel h f
  · exact mrising_mput h f v

theorem hearField_rising (heard : List Nat) {s : State} (h : mrising s.fields = true) (f : Nat) :
    mrising (hearField heard s f).fields = true := by
  unfold hearField
  split
  · exact mrising_setField h f _
  · exact h

theorem hearField_self (heard : List Nat) {s : State} (h : mrising s.fields = true) (f : Nat) :
    getField (hearField heard s f) f = heardField heard (fieldAlive s f) f (getField s f) := by
  unfold hearField heardField
  split
  · exact getField_setField_self h f _
  · rfl

theorem hearField_ne (heard : List Nat) (s : State) {f g : Nat} (h : g ≠ f) : getField (hearField heard s f) g = getField s g := by
  unfold hearField
  split
  · exact getField_setField_ne s _ h
  · rfl

theorem hearField_power (heard : List Nat) (s : State) (f : Nat) : (hearField heard s f).power = s.power := by
  unfold hearField
  split <;> rfl

theorem hearField_boot (heard : List Nat) (s : State) (f : Nat) : (hearField heard s f).boot = s.boot := by
  unfold hearField
  split <;> rfl

/-- Each field that the interval reaches hears once. -/
theorem getField_hearFields (heard : List Nat) {l : List Nat} (hl : l.Nodup) {s : State} (h : mrising s.fields = true) (f : Nat) :
    getField (forAll (hearField heard) l s) f =
      if f ∈ l then heardField heard (fieldAlive s f) f (getField s f) else getField s f := by
  induction l generalizing s with
  | nil => rfl
  | cons a r ih =>
    obtain ⟨har, hr⟩ := List.nodup_cons.1 hl
    rw [forAll, ih hr (hearField_rising heard h a)]
    by_cases hf : f = a
    · subst hf
      rw [if_neg har, if_pos List.mem_cons_self, hearField_self heard h]
    · have hg := hearField_ne heard s hf
      have ha : fieldAlive (hearField heard s a) f = fieldAlive s f := by simp only [fieldAlive, hg, hearField_power]
      rw [ha, hg]
      simp only [List.mem_cons, hf, false_or]

theorem heardField_power (heard : List Nat) (alive : Bool) (f : Nat) (D : Field) : (heardField heard alive f D).power = D.power := by
  unfold heardField
  split <;> rfl

/-- An interval leaves a field as alive as it was. -/
theorem fieldAlive_hearFields (heard : List Nat) {s : State} (h : mrising s.fields = true) (f : Nat) :
    fieldAlive (forAll (hearField heard) (List.range 49) s) f = fieldAlive s f := by
  have hp : (forAll (hearField heard) (List.range 49) s).power = s.power := forAll_keeps State.power (hearField_power heard) _ s
  have hf : (getField (forAll (hearField heard) (List.range 49) s) f).power = (getField s f).power := by
    rw [getField_hearFields heard List.nodup_range h]
    split
    · exact heardField_power heard _ f _
    · rfl
  simp only [fieldAlive, hp, hf]

theorem exec_heartbeat_counts {s : State} (heard : List Nat) {m : Nat} (hp : s.power.on = true) (hm : s.boot.master = some m) :
    exec (.heartbeat heard) s = .next (
      let u := forAll (hearField heard) (List.range 49) s
      if heard.contains m && fieldAlive u m then { u with boot := { u.boot with heartbeat := u.boot.heartbeat + 1 } } else u) := by
  rw [exec_heartbeat, execHeartbeat]
  rw [if_neg (by simp [hp]), hm]
  generalize List.range 49 = l
  rfl

theorem heartbeat_results {s : State} (heard : List Nat) {m f : Nat} (hp : s.power.on = true) (h : mrising s.fields = true)
    (hm : s.boot.master = some m) (hf : f < 49) :
    ∃ s', exec (.heartbeat heard) s = .next s' ∧ getField s' f = heardField heard (fieldAlive s f) f (getField s f) ∧
      (heard.contains m = true → fieldAlive s m = true → s'.boot.heartbeat = s.boot.heartbeat + 1) := by
  refine ⟨_, exec_heartbeat_counts heard hp hm, ?_⟩
  have hg := getField_hearFields heard (List.nodup_range (n := 49)) h f
  rw [if_pos (List.mem_range.2 hf)] at hg
  have hb : (forAll (hearField heard) (List.range 49) s).boot = s.boot :=
    forAll_keeps State.boot (hearField_boot heard) _ s
  have ha := fieldAlive_hearFields heard h m
  generalize forAll (hearField heard) (List.range 49) s = u at *
  refine ⟨?_, fun hc hlive => ?_⟩
  · dsimp only
    split <;> exact hg
  · simp only [hc, ha, hlive, Bool.and_self, if_true, hb]

/-! ### A controller that hangs (R453) -/

/-- The hangs of a field's controller within the last hour, one that happens now in front. -/
def hangsNow (s : State) (f : Nat) : List Nat :=
  s.clk.gtc :: (getField s f).hangs.filter (fun g => decide (s.clk.gtc < g + 3600000000000))

theorem hangsNow_congr {s u : State} {f : Nat} (hg : getField u f = getField s f) (hc : u.clk = s.clk) :
    hangsNow u f = hangsNow s f := by
  rw [hangsNow, hg, hc, hangsNow]

theorem markHung_third (s : State) (f : Nat) : (markHung s f).2 = decide (3 ≤ (hangsNow s f).length) := rfl

theorem Kept.getField {s u : State} (h : Kept s u) (f : Nat) : getField u f = getField s f := by
  rw [Machine.getField, h.fields, Machine.getField]

theorem markHung_getField {s : State} (h : mrising s.fields = true) (f : Nat) :
    getField (markHung s f).1 f = { getField s f with hung := true, hangs := hangsNow s f } := getField_setField_self h f _

theorem markHung_getField_ne (s : State) {f g : Nat} (h : g ≠ f) : getField (markHung s f).1 g = getField s g :=
  getField_setField_ne s _ h

/-- The state in which a hang has been raised and recorded, and the standby named anew where it is lost. -/
def hangNoted (s : State) (f : Nat) : State :=
  let u := (markHung (raise s ((blankEvent clHeartbeat sevRecoverable meHeartbeat acNone).atField s f) f) f).1
  if u.boot.standby = some f then nameStandby u else u

theorem hangNoted_rest (s : State) (f : Nat) : (hangNoted s f).boot.resetting = s.boot.resetting ∧
    (hangNoted s f).boot.st = s.boot.st ∧ (hangNoted s f).events.latched.getLsbD clHeartbeat = true := by
  unfold hangNoted
  extract_lets u
  have hb : u.boot = s.boot := raise_boot s _ f
  have hl : u.events.latched.getLsbD clHeartbeat = true := raise_latched s _ f (Event.atField_cls s f _) (by decide)
  split
  · exact ⟨show u.boot.resetting = _ from hb ▸ rfl, show u.boot.st = _ from hb ▸ rfl, hl⟩
  · exact ⟨hb ▸ rfl, hb ▸ rfl, hl⟩

theorem hangNoted_fields {s : State} (h : mrising s.fields = true) (f : Nat) :
    mrising (hangNoted s f).fields = true ∧
      getField (hangNoted s f) f = { getField s f with hung := true, hangs := hangsNow s f } := by
  unfold hangNoted
  generalize hv : raise s _ f = v
  have hk : Kept s v := hv ▸ raise_kept s _ f
  have hr : mrising v.fields = true := hk.fields ▸ h
  have hm : getField (markHung v f).1 f = { getField s f with hung := true, hangs := hangsNow s f } := by
    rw [markHung_getField hr, hk.getField f, hangsNow_congr (hk.getField f) hk.clk]
  have hr' : mrising (markHung v f).1.fields = true := mrising_setField hr f _
  dsimp only
  split <;> exact ⟨hr', hm⟩

/-- The third hang within an hour is one too many. -/
theorem exec_controllerHang_hangs {s : State} {f : Nat} (hp : s.power.on = true) (hf : f < 49) (hh : isHung s f = true)
    (hm : s.boot.master ≠ some f) :
    exec (.controllerHang f) s = .next (
      if 3 ≤ (hangsNow s f).length then decideFull (modField (hangNoted s f) f (fun D => { D with defect := some 6 }))
      else hangNoted s f) := by
  have hk := raise_kept s ((blankEvent clHeartbeat sevRecoverable meHeartbeat acNone).atField s f) f
  rw [exec_controllerHang, execControllerHang]
  simp only [hp, hf, hh, hm, ne_eq, not_false_eq_true, decide_true, Bool.and_self, if_true, markHung_third,
    hangsNow_congr (hk.getField f) hk.clk, decide_eq_true_eq]
  rfl

theorem controllerHang_first {s : State} {f : Nat} (hp : s.power.on = true) (hr : mrising s.fields = true) (hf : f < 49)
    (hh : isHung s f = true) (hm : s.boot.master ≠ some f) (hl : (hangsNow s f).length < 3) :
    ∃ s', exec (.controllerHang f) s = .next s' ∧ (getField s' f).hung = true ∧ (getField s' f).defect = (getField s f).defect ∧
      s'.boot.resetting = s.boot.resetting ∧ s'.events.latched.getLsbD clHeartbeat = true := by
  obtain ⟨hres, -, hlat⟩ := hangNoted_rest s f
  obtain ⟨-, hg⟩ := hangNoted_fields hr f
  refine ⟨hangNoted s f, ?_, hg ▸ rfl, hg ▸ rfl, hres, hlat⟩
  rw [exec_controllerHang_hangs hp hf hh hm, if_neg (by omega)]

theorem controllerHang_third {s : State} {f : Nat} (hp : s.power.on = true) (hr : mrising s.fields = true) (hf : f < 49)
    (hs : s.boot.st = .ready) (hh : isHung s f = true) (hm : s.boot.master ≠ some f) (hl : 3 ≤ (hangsNow s f).length) :
    ∃ s', exec (.controllerHang f) s = .next s' ∧ (getField s' f).defect = some 6 ∧ s'.boot.resetting = some .full := by
  obtain ⟨-, hst, -⟩ := hangNoted_rest s f
  obtain ⟨hr', -⟩ := hangNoted_fields hr f
  have hex := exec_controllerHang_hangs hp hf hh hm
  rw [if_pos hl] at hex
  generalize hu : modField (hangNoted s f) f (fun D => { D with defect := some 6 }) = u at hex
  have hd : (getField u f).defect = some 6 := by rw [← hu, modField, getField_setField_self hr']
  have hus : u.boot.st = .ready := by rw [← hu, ← hs, ← hst]; rfl
  obtain ⟨b, hb, -, hfull⟩ := decideFull_cases u
  refine ⟨_, hex, ?_, ?_⟩
  · rw [getField, hb.fields]
    exact hd
  · rw [hb.boot]
    exact hfull (by simp [hus]) (by simp [hus])

/-! ### What the walk and the forwarding of events leave of the fields -/

theorem fields_raiseEvent (s : State) (t : XY) (bit : Nat) : (raiseEvent s t bit).1.fields = s.fields := by
  by_cases h : (getTile s t).raisedAs bit ∈ (getTile s t).raised
  · obtain ⟨u, hu, hk, -⟩ := raiseEvent_of_mem rfl h
    rw [hu]
    exact hk.fields
  · rw [raiseEvent_of_not_mem h]

theorem fields_forwardEvent (s : State) (t : XY) (bit : Nat) : (forwardEvent s t bit).fields = s.fields := by
  unfold forwardEvent
  extract_lets x
  split
  · exact (decideCompute_fields x.1).trans (fields_raiseEvent s t bit)
  · exact fields_raiseEvent s t bit

theorem fields_forwardAll (s : State) (t : XY) : (forwardAll s t).fields = s.fields := by
  unfold forwardAll
  split
  · rfl
  · exact forAll_keeps State.fields (fun s b => fields_forwardEvent s t (eventBit b)) _ s

theorem fields_setEventAs (s : State) (t : XY) (b how : Nat) : (setEventAs s t b how).fields = s.fields := by
  unfold setEventAs
  dsimp only
  split <;> rfl

theorem fields_checkRead (s : State) (t : XY) (l : List Nat) : (checkRead s t l).1.fields = s.fields := by
  induction l generalizing s with
  | nil => rfl
  | cons w r ih =>
    unfold checkRead
    split
    · exact ih s
    · exact (ih _).trans (fields_setEventAs _ t _ _)
    · exact (ih _).trans (fields_setEventAs _ t _ _)

theorem fields_leaveSite (x : State × Bool) (t : XY) : (leaveSite x t).1.fields = x.1.fields := by
  unfold leaveSite
  extract_lets ws u v y
  have hy : y.1.fields = v.fields := foldl_keeps (fun y : State × Bool => y.1.fields)
    (f := fun y b => ((raiseEvent y.1 t b).1, y.2 || (raiseEvent y.1 t b).2)) (fun y b => fields_raiseEvent y.1 t b) _ (v, x.2)
  have hu : u.fields = x.1.fields := fields_checkRead x.1 t ws
  clear_value u
  exact hy.trans hu

theorem fields_taintStep (s : State) (p : Nat) : (taintStep s p).fields = s.fields := by
  rcases taintStep_cases s p with ⟨h, -⟩ | ⟨u, rfl, h | h⟩
  · rw [h]
  · rw [h]; rfl
  · rw [h, (Untouched.beginContextReset _ p true false).fields]; rfl

theorem fields_taintAt (s : State) (t : XY) : (taintAt s t).fields = s.fields := by
  unfold taintAt
  split
  · rfl
  · dsimp only
    split
    · exact fields_taintStep s _
    · exact fields_taintStep s _

theorem fields_setParityAs (s : State) (t : XY) (how : Nat) : (setParityAs s t how).fields = s.fields := by
  unfold setParityAs
  extract_lets u T
  split <;> exact fields_setEventAs s t _ _

theorem fields_enterSite (s : State) (t : XY) (bad : List Nat) : (enterSite s t bad).fields = s.fields := by
  unfold enterSite
  dsimp only
  split
  · exact (fields_taintAt _ t).trans (fields_setParityAs _ t _)
  · rfl

theorem fields_stepRow (y : State × Bool) (f r : Nat) (bad : List Nat) : (stepRow y f r bad).1.fields = y.1.fields := by
  unfold stepRow
  extract_lets s w ts x u late w' v v' v''
  have hx : x.1.fields = y.1.fields := foldl_keeps (fun y : State × Bool => y.1.fields) fields_leaveSite ts y
  clear_value x
  have hv : v''.fields = x.1.fields := by
    unfold v''
    split <;> simp only [v', v, u, addTotal_fields, setRow_fields, cleanSites, setSite_fields]
  exact (forAll_keeps State.fields (fun s t => fields_enterSite s t bad) ts v'').trans (hv.trans hx)

theorem fields_takeDue (x : State × Bool) (f r : Nat) (bad : List Nat) : (takeDue x f r bad).1.fields = x.1.fields := by
  unfold takeDue
  split
  · exact fields_stepRow x f r bad
  · rfl

theorem fields_stepsDone (x : State × Bool) : (stepsDone x).fields = x.1.fields := by
  unfold stepsDone
  split
  · exact decideCompute_fields x.1
  · rfl

/-! ### A controller that has restarted (R453) -/

/-- A restart marks the controller's field and no other; what follows it, the events forwarded and the late steps, leaves the fields. -/
theorem controllerRestarted_fields {s : State} {f : Nat} (hf : f < 49) (ha : fieldAlive s f = true)
    (hh : (getField s f).hung = true) : ∃ s', exec (.controllerRestarted f) s = .next s' ∧
      s'.fields = (setField s f { getField s f with hung := false, missed := 0 }).fields := by
  rw [exec_controllerRestarted, execControllerRestarted]
  simp only [hh, ha, hf, decide_true, Bool.and_self, if_true]
  generalize hu : nameStandby (setField s f _) = u
  have huf : u.fields = (setField s f { getField s f with hung := false, missed := 0 }).fields := hu ▸ rfl
  generalize hv : forAll (fun s t => forwardAll s t) _ u = v
  have hvf : v.fields = u.fields := hv ▸ forAll_keeps State.fields fields_forwardAll _ u
  refine ⟨_, rfl, Eq.trans ?_ (hvf.trans huf)⟩
  split
  · exact (fields_stepsDone _).trans
      (foldl_keeps (fun y : State × Bool => y.1.fields) (fun y r => fields_takeDue y f r []) _ (v, false))
  · rfl

/-! ### The boot master fails (R454) -/

theorem mem_electOrder {b : Nat} (h : b < 49) : b ∈ electOrder := by
  unfold electOrder
  by_cases hb : b ∈ [24, 18, 30, 23, 25]
  · exact List.mem_append_left _ hb
  · exact List.mem_append_right _ (List.mem_filter.2 ⟨List.mem_range.2 h, by simpa using hb⟩)

theorem candidate_markHung (s : State) {f b : Nat} (h : b ≠ f) : candidate (markHung s f).1 b = candidate s b := by
  have hg := markHung_getField_ne s h
  simp only [candidate, fieldAlive, hg]
  rfl

theorem busyMailboxes_untouched (s : State) (p : HPort) : Untouched s (busyMailboxes s p) := by
  unfold busyMailboxes
  exact .modPort s p _

/-- The standby takes the old boot master's place, and a compute reset is decided. -/
theorem bootMasterFailover_takes {s : State} {m b : Nat} (hp : s.power.on = true) (hs : s.boot.st = .ready)
    (hr : s.boot.resetting = none) (hm : s.boot.master = some m) (hg : fieldAlive s m = false ∨ isHung s m = true)
    (hb : s.boot.standby = some b) (hne : b ≠ m) (h49 : b < 49) (hc : candidate s b = true) (h0 : s.boot.computeAt = []) :
    ∃ s', exec .bootMasterFailover s = .next s' ∧
        s'.boot.master = some b ∧ s'.boot.resetting = some .compute ∧ s'.events.latched.getLsbD clHeartbeat = true := by
  have hgone : masterGone s = true := by
    unfold masterGone
    rw [hm]
    rcases hg with hg | hg <;> simp [hg]
  rw [exec_bootMasterFailover, execBootMasterFailover]
  rw [if_neg (by simp [hp, hs, hgone]), hm]
  dsimp only [Option.getD_some]
  generalize hu : (if fieldAlive s m = true then (markHung s m).1 else s) = u
  have hub : u.boot = s.boot := by rw [← hu]; split <;> rfl
  have huc : candidate u b = true := by
    rw [← hu]
    split
    · exact (candidate_markHung s hne).trans hc
    · exact hc
  obtain ⟨first, hfirst⟩ := Option.isSome_iff_exists.1 (List.find?_isSome.2 ⟨b, mem_electOrder h49, huc⟩)
  simp only [hfirst, hub, hb, huc, if_true]
  generalize hv : nameStandby _ = v
  have hvm : v.boot.master = some b := hv ▸ rfl
  have hvr : v.boot.resetting = none := by rw [← hv, ← hr]; rfl
  have hvs : v.boot.st = .ready := by rw [← hv, ← hs]; rfl
  have hv0 : v.boot.computeAt = [] := by rw [← hv, ← h0]; rfl
  generalize hw : busyMailboxes (busyMailboxes v .a) .b = w
  have hwb : w.boot = v.boot := hw ▸ ((busyMailboxes_untouched v .a).trans (busyMailboxes_untouched _ .b)).boot
  generalize hx : raise w _ m = x
  have hxb : x.boot = v.boot := (hx ▸ raise_boot w _ m).trans hwb
  have hxl : x.events.latched.getLsbD clHeartbeat = true := hx ▸ raise_latched w _ m (Event.atField_cls w m _) (by decide)
  obtain ⟨c, hd, hcm, hcr⟩ := decideCompute_cases x
  rw [hxb] at hcm hcr
  refine ⟨decideCompute x, by rw [hxb, hvr]; rfl, ?_, ?_, hd.events ▸ hxl⟩
  · rw [hd.boot]
    exact hcm.trans hvm
  · rw [hd.boot]
    exact (hcr hvr hvs).2 hv0

/-! ### The obligation -/

/-- Settles O51: each clause is the result of its command, and what follows the command keeps it. -/
theorem controllerResults : Obligations.ControllerResults := by
  unfold Obligations.ControllerResults
  intro s hp hr hs hres
  refine ⟨?lanes, ?events, ?beats, ?hangs, ?restarts, ?failover⟩
  case lanes =>
    rintro n v d hn rfl h1 h2 hb hrise ht
    obtain ⟨s', hex, hself, hlat, hev⟩ := laneCompareStep_results d hn ht h1 h2 hb hrise
    exact ⟨s', hex, hself ▸ comparedBundle_bad _ d, hself ▸ rfl, hlat, hev⟩
  case events =>
    rintro t bit h hok ht hh hbit rfl
    rw [exec_eventForward_forwards hp ht hh hbit]
    refine ⟨fun hn => by rw [forwardEvent_of_not_mem hn], fun hm => ⟨_, rfl, ?_⟩⟩
    obtain ⟨he, hra, hstall, hcls, hue⟩ := forwardEvent_of_mem hok hres hs rfl hm
    have hbits := eventBit_raisedAs (getTile s t) hbit
    refine ⟨fun hn => ?_, fun hn => ?_, hra, hcls, fun hb => ?_, fun hb => ?_⟩
    · have := forwarded_event_cleared (T := getTile s t) (h := (getTile s t).raisedAs bit) (by rwa [hbits])
      rwa [hbits, ← he] at this
    · exact he.trans (forwarded_event_stands (by rwa [hbits]))
    · exact hstall (by rw [hb]; rfl)
    · exact hue (by rw [hb]; rfl)
  case beats =>
    intro l f m hm hf ha hh
    obtain ⟨s', hex, hg, hbeat⟩ := heartbeat_results l hp hr hm hf
    refine ⟨s', hex, ?_, fun hmf hc => hbeat (hmf ▸ hc) (hmf ▸ ha)⟩
    rw [hg, heardField, if_pos (by simp [ha, hh])]
  case hangs =>
    intro f hf hh hm
    refine ⟨fun h0 => ?_, fun g h hl hg hh' => ?_⟩
    · rw [← hres]
      exact controllerHang_first hp hr hf hh hm (by simp [hangsNow, h0])
    · exact controllerHang_third hp hr hf hs hh hm (by simp [hangsNow, hl, hg, hh'])
  case restarts =>
    intro f hf ha hh
    obtain ⟨s', hex, hfields⟩ := controllerRestarted_fields hf ha hh
    have hg : getField s' f = { getField s f with hung := false, missed := 0 } := by
      rw [getField, hfields, ← getField, getField_setField_self hr]
    exact ⟨s', hex, hg ▸ rfl, hg ▸ rfl⟩
  case failover =>
    intro m b hm hg hb hne h49 hc h0
    exact bootMasterFailover_takes hp hs hres hm hg hb hne h49 hc h0

end Sys2Proof.Machine
end

section
/-!
PROOFS. What the codes of E2M1, UE5M3 and E8M0 stand for (R112, R115, R116, Table 4.3). First the magnitude of a dyadic value without
its fraction, and the two readings of a code without sign, with exponent field 0 and with another; then each format.
-/
namespace Sys2Proof.Machine

/-! ### The magnitude of a value -/

/-- A value m·2^(n - k) is m·2^n in units of 2^-k. -/
theorem Dy.num_scaled {d : Dy} {k n : Nat} (h : d.e = Int.ofNat n - Int.ofNat k) : 2 ^ k * d.num = d.den * (d.m * 2 ^ n) := by
  have hexp : k + d.e.toNat = (-d.e).toNat + n := by
    rw [h]
    simp only [Int.ofNat_eq_natCast]
    omega
  calc 2 ^ k * d.num = d.m * 2 ^ (k + d.e.toNat) := by rw [Dy.num, Nat.shiftLeft_eq, Nat.pow_add, Nat.mul_left_comm]
    _ = d.m * 2 ^ ((-d.e).toNat + n) := by rw [hexp]
    _ = d.den * (d.m * 2 ^ n) := by rw [Dy.den, Nat.one_shiftLeft, Nat.pow_add, Nat.mul_left_comm]

/-! ### A code without sign -/

theorem decMag_not_neg (mb bias c : Nat) : (decMag mb bias c).neg = false := by
  unfold decMag
  dsimp only
  split <;> rfl

/-- Exponent field 0: a zero or a subnormal, with no hidden bit. -/
theorem decMag_subnormal {mb m : Nat} (bias : Nat) (hm : m < 2 ^ mb) :
    decMag mb bias m = ⟨false, m, 1 - Int.ofNat bias - Int.ofNat mb⟩ := by
  have he : m >>> mb = 0 := by rw [Nat.shiftRight_eq_div_pow, Nat.div_eq_of_lt hm]
  rw [decMag, if_pos he, Nat.mod_eq_of_lt hm]

/-- Another exponent field: the hidden bit stands in front of the mantissa. -/
theorem decMag_normal {mb E m : Nat} (bias : Nat) (hE : 0 < E) (hm : m < 2 ^ mb) :
    decMag mb bias (2 ^ mb * E + m) = ⟨false, 2 ^ mb + m, Int.ofNat E - Int.ofNat bias - Int.ofNat mb⟩ := by
  have he : (2 ^ mb * E + m) >>> mb = E := by
    rw [Nat.shiftRight_eq_div_pow, Nat.mul_add_div (Nat.two_pow_pos mb), Nat.div_eq_of_lt hm, Nat.add_zero]
  have hmant : (2 ^ mb * E + m) % 2 ^ mb = m := by rw [Nat.mul_add_mod, Nat.mod_eq_of_lt hm]
  simp only [decMag, he, hmant, if_neg (Nat.ne_of_gt hE)]

/-! ### E2M1 (R112) -/

/-- No E2M1 code is an infinity or NaN: bit 3 is the sign, bits [2:0] are the magnitude. -/
theorem dec_e2m1 (c : Nat) : Elem.e2m1.dec c = .fin ((decMag 1 1 (c % 8)).signed (c.testBit 3)) := rfl

/-- The eight magnitudes of Table 4.3, in halves. -/
theorem e2m1_magnitudes : ∀ i < 8, 2 * (decMag 1 1 i).num = (decMag 1 1 i).den * [0, 1, 2, 3, 4, 6, 8, 12].getD i 0 := by decide

theorem testBit_three_of_lt {c : Nat} (hc : c < 16) : c.testBit 3 = decide (8 ≤ c) := by
  rw [Nat.testBit_eq_decide_div_mod_eq, decide_eq_decide]
  omega

/-! ### UE5M3 (R115) -/

theorem ue5m3_of_ne {c : Nat} (h : c ≠ 0xFF) : ue5m3 c = some (decMag 3 15 c) := if_neg h

theorem ue5m3_subnormal {m : Nat} (hm : m < 8) : 2 ^ 17 * (decMag 3 15 m).num = (decMag 3 15 m).den * m := by
  rw [decMag_subnormal 15 hm]
  have h : 2 ^ 17 * Dy.num ⟨false, m, -17⟩ = Dy.den ⟨false, m, -17⟩ * (m * 2 ^ 0) := Dy.num_scaled rfl
  rwa [Nat.pow_zero, Nat.mul_one] at h

theorem ue5m3_normal {E m : Nat} (hE : 0 < E) (hm : m < 8) :
    2 ^ 18 * (decMag 3 15 (8 * E + m)).num = (decMag 3 15 (8 * E + m)).den * ((8 + m) * 2 ^ E) := by
  have hdec : decMag 3 15 (8 * E + m) = ⟨false, 8 + m, Int.ofNat E - 15 - 3⟩ := decMag_normal 15 hE hm
  rw [hdec]
  exact Dy.num_scaled (Int.sub_sub _ 15 3)

/-! ### E8M0 (R116) -/

theorem e8m0_of_ne {c : Nat} (h : c ≠ 0xFF) : e8m0 c = some (Dy.pow2 (Int.ofNat c - 127)) := if_neg h

theorem pow2_scaled (k n : Nat) :
    2 ^ k * (Dy.pow2 (Int.ofNat n - Int.ofNat k)).num = (Dy.pow2 (Int.ofNat n - Int.ofNat k)).den * 2 ^ n :=
  (Dy.num_scaled rfl).trans (congrArg _ (Nat.one_mul _))

/-! ### The obligation -/

/-- Settles O60: the fields of each code, then its magnitude in units of the format's least exponent. -/
theorem numberFormatDecoding : Obligations.NumberFormatDecoding := by
  unfold Obligations.NumberFormatDecoding
  refine ⟨fun c hc => ?e2m1, rfl, fun E m _ hm hne => ?ue5m3, rfl, fun X hX => ?e8m0⟩
  case e2m1 =>
    exact ⟨_, dec_e2m1 c, testBit_three_of_lt hc, e2m1_magnitudes (c % 8) (Nat.mod_lt c (by decide))⟩
  case ue5m3 =>
    refine ⟨_, ue5m3_of_ne hne, decMag_not_neg _ _ _, ?_, fun hE => ue5m3_normal hE hm⟩
    rintro rfl
    rw [Nat.mul_zero, Nat.zero_add]
    exact ue5m3_subnormal hm
  case e8m0 =>
    exact ⟨_, e8m0_of_ne (Nat.ne_of_lt hX), rfl, pow2_scaled 127 X⟩

end Sys2Proof.Machine
end
